-- ==== Sys2Proof/Word.lean ====
section
/-! DEFINITION. The word types of the engine: bytes, byte strings (spec 00_scope.md R10), the 32-bit bus
and command word (R9, R70), the fixed-size byte registers, and the eight chaining words of SHA-256 (R38). -/

namespace Sys2Proof

/-- A byte, a value 0 to 255 (R10). -/
abbrev Byte := BitVec 8

/-- A 32-bit word: a bus value, a register value, a command word, a SHA-256 word (R9, R70, R164). -/
abbrev Word := BitVec 32

/-- A byte string: a finite sequence of bytes indexed from 0 (R10). -/
abbrev Bytes := List Byte

/-- A 16-byte block of the cipher; also the size of IV, CV and HELD (R6, R32, R35, R37). -/
abbrev Block := Vector Byte 16

/-- A 32-byte cipher key (R6, R32, R35). -/
abbrev Key := Vector Byte 32

/-- The 32 bytes of a finished digest (R6, R39). -/
abbrev DigestBytes := Vector Byte 32

/-- The eight 32-bit words HS[0] to HS[7] of the hash context (R38); also the eight working variables
a to h of the compression function (R169). -/
structure HashWords where
  w0 : Word
  w1 : Word
  w2 : Word
  w3 : Word
  w4 : Word
  w5 : Word
  w6 : Word
  w7 : Word
deriving DecidableEq, Repr

/-- Eight zero words: HS after reset and after zeroizing (R44, R45). -/
def HashWords.zero : HashWords := ⟨0, 0, 0, 0, 0, 0, 0, 0⟩

end Sys2Proof
end

