-- ==== Sys2Proof/Config.lean ====
section
/-! DEFINITION. What an implementation of the engine fixes (spec 00_scope.md R6 to R8) and the free values
the spec leaves unspecified (93_implementation_defined.md U1 to U3). The spec's rule R8 says that the model
takes BASE, SALT, KDF_VARIANT and BLOCK_CIPHER as arguments: they are the record `Config`, which every state
carries and no step changes, so that a statement about every state is a statement about every
parameter value. -/

namespace Sys2Proof

/-! ### Sizes the spec fixes (R6, R7) -/

/-- R6: KEY_BYTES. -/
@[simp] abbrev keyBytes : Nat := 32
/-- R6: IV_BYTES. -/
@[simp] abbrev ivBytes : Nat := 16
/-- R6, R130: BLOCK_BYTES. -/
@[simp] abbrev blockBytes : Nat := 16
/-- R6: SALT_BYTES. -/
@[simp] abbrev saltBytes : Nat := 8
/-- R6: DIGEST_BYTES. -/
@[simp] abbrev digestBytes : Nat := 32
/-- R6, R187: HEX_CHARS. -/
@[simp] abbrev hexChars : Nat := 64
/-- R6: CHUNK_MAX, the longest input of one update; R7: PASS_MAX and DATA_IN_BYTES are the same number. -/
@[simp] abbrev chunkMax : Nat := 1024
/-- R7: DATA_OUT_BYTES. -/
@[simp] abbrev dataOutBytes : Nat := 1024
/-- R7, R50: WINDOW_BYTES. -/
@[simp] abbrev windowBytes : Nat := 4096

/-- R8, R111: KDF_VARIANT. -/
inductive KdfVariant where
  | bytesToKeySha256
  | pbkdf2HmacSha256
deriving DecidableEq, Repr

/-- One exchange of a block cipher given as data: under the key `key` the blocks `left` and `right` change places. -/
structure BlockSwap where
  key : Key
  left : Block
  right : Block
deriving DecidableEq, Repr

/-- R8, R146: BLOCK_CIPHER, a pair (E, D) of block permutations keyed by 32 bytes, D inverting E. The default is
AES256. `custom swaps` is the pair whose E(K, ·) makes the exchanges listed for K in their order and whose D(K, ·)
makes them backwards. Every list gives a pair R146 admits, and every pair R146 admits is given by some list
(Laws/Cipher.lean). DESIGN CHOICE (log entry 4): the pair as a list of exchanges. -/
inductive BlockCipher where
  | aes256
  | custom (swaps : List BlockSwap)
deriving DecidableEq, Repr

/-- The parameters of an instance (R8, R33, R46): fixed for its life. BASE is a multiple of 4096 (R51), so the
record holds BASE / 4096. -/
structure Config where
  /-- BASE / 4096 (R8, R51). -/
  basePage : Nat
  /-- SALT, 8 bytes (R8, R33). -/
  salt : Vector Byte 8
  /-- KDF_VARIANT (R8, R111). -/
  kdfVariant : KdfVariant
  /-- BLOCK_CIPHER (R8, R146). -/
  blockCipher : BlockCipher
deriving DecidableEq, Repr

/-- BASE, the host address of window offset 0 (R51). -/
def Config.base (c : Config) : Nat := windowBytes * c.basePage

/-- The instance State.reset stands for: the defaults of R8's table for KDF_VARIANT and BLOCK_CIPHER, its
candidate for SALT ("12345678"), and BASE = 0.
DESIGN CHOICE (log entry 1): SALT and BASE are OPEN in the spec; unsafe, and no statement rests on them. -/
def Config.standard : Config where
  basePage := 0
  salt := #v[0x31, 0x32, 0x33, 0x34, 0x35, 0x36, 0x37, 0x38]
  kdfVariant := .bytesToKeySha256
  blockCipher := .aes256

/-! ### Free values: nothing constrains them -/

/-- R61, U1, U2: a byte of DATA_OUT that a read finds unspecified, "a fresh arbitrary value on each read". The
argument is the number of bytes drawn before it (State.draws). Free value (log entry 2). -/
opaque Config.freeByte : Nat → Byte

/-- R45, R235, U3: DATA_IN[i] after the n-th reset, "each byte an arbitrary value", drawn once at reset.
Free value (log entry 3). -/
opaque Config.dataInAtReset : Nat → Nat → Byte

end Sys2Proof
end

