-- ==== Sys2Proof/Machine/Bytes.lean ====
section
/-! DEFINITION. Operations on byte strings (spec 00_scope.md R10, R11): fixed-size registers from byte strings,
XOR, big-endian and little-endian packing, cutting into blocks. -/

namespace Sys2Proof.Machine

/-- The n-byte register that holds the byte string l. Every use is on a string of exactly n bytes; a shorter one is
filled up with zero bytes, a longer one cut. -/
def fit (n : Nat) (l : Bytes) : Vector Byte n :=
  ⟨((l ++ List.replicate n 0).take n).toArray, by simp⟩

/-- n zero bytes, the value a register is zeroized to (R18, R44). -/
def zeros (n : Nat) : Vector Byte n := Vector.replicate n 0

/-- R10: `a ^ b`, bytewise XOR of strings of equal length. -/
def xorBytes (a b : Bytes) : Bytes := List.zipWith (· ^^^ ·) a b

/-- R10: bytewise XOR of two blocks. -/
def xorBlock (a b : Block) : Block := fit 16 (xorBytes a.toList b.toList)

/-- R11, R164: the word a 4-byte string spells, most significant byte first. -/
def be32 (s : Bytes) : Word :=
  BitVec.ofNat 32 ((s.getD 0 0).toNat * 2 ^ 24 + (s.getD 1 0).toNat * 2 ^ 16
    + (s.getD 2 0).toNat * 2 ^ 8 + (s.getD 3 0).toNat)

/-- R11, R164: a word as 4 bytes, most significant first. -/
def toBE32 (w : Word) : Bytes :=
  [w.extractLsb' 24 8, w.extractLsb' 16 8, w.extractLsb' 8 8, w.extractLsb' 0 8]

/-- R11, R164: a 64-bit word as 8 bytes, most significant first. -/
def toBE64 (w : BitVec 64) : Bytes :=
  [w.extractLsb' 56 8, w.extractLsb' 48 8, w.extractLsb' 40 8, w.extractLsb' 32 8,
   w.extractLsb' 24 8, w.extractLsb' 16 8, w.extractLsb' 8 8, w.extractLsb' 0 8]

/-- R11, R53: `LE(s)`, the sum of s[i]·2^(8i). -/
def leNat : Bytes → Nat
  | [] => 0
  | b :: s => b.toNat + 256 * leNat s

/-- R53: byte i of a bus value, its bits [8i+7:8i]. -/
def lane (v : Word) (i : Nat) : Byte := v.extractLsb' (8 * i) 8

/-- R53: the n bytes a write of value v puts on the bus, lowest offset first. -/
def lanes (v : Word) (n : Nat) : Bytes := (List.range n).map (lane v)

/-- The first `k` pieces of `size` bytes each of a byte string. -/
def splitBlocks (size : Nat) : Nat → Bytes → List Bytes
  | 0, _ => []
  | k + 1, t => t.take size :: splitBlocks size k (t.drop size)

end Sys2Proof.Machine
end

