-- ==== Sys2Proof/Machine/State.lean ====
section
/-! DEFINITION. The state of the machine (spec 10_state.md, R46) and its value after reset (R45). Beside the
engine's own state it holds what the model needs of the world around it: the turns the host, the engine and the
reset input take next, the bus response the host saw last, and two counters for the spec's unspecified
values. -/

namespace Sys2Proof.Machine

/-- R34: the engine's FSM state, eight values in 3 bits. -/
inductive Fsm where
  /-- 0: no context bound. -/
  | uninit
  /-- 1: cipher context bound, no update yet. -/
  | cInit
  /-- 2: cipher context after at least one update. -/
  | cStream
  /-- 3: cipher context finalized. -/
  | cFinal
  /-- 4: digest context bound, no update yet. -/
  | dInit
  /-- 5: digest context after at least one update. -/
  | dAccum
  /-- 6: digest finalized; DIGEST valid. -/
  | dFinal
  /-- 7: a cryptographic error ended the context. -/
  | fault
deriving DecidableEq, Repr

/-- R210: the names of the values ERRCODE.CODE may take. -/
inductive ErrCode where
  /-- 0x00: the command succeeded. -/
  | none
  /-- 0x01: STATE is not one the command is legal in. -/
  | seq
  /-- 0x02: an illegal command word. -/
  | badcmd
  /-- 0x03: an illegal LEN. -/
  | badlen
  /-- 0x10: defined, never produced (R116). -/
  | kdfFail
  /-- 0x11: CIPHER_INIT without key material (R126). -/
  | initFail
  /-- 0x12: defined, never produced (R131). -/
  | updateFail
  /-- 0x13: ciphertext empty or not a multiple of 16 bytes (R142). -/
  | finalLen
  /-- 0x14: invalid padding (R142). -/
  | finalPad
deriving DecidableEq, Repr

/-- A host bus access (R13, R53): `n` bytes at a host address; a write carries its value in the low 8·n bits. -/
inductive Access where
  | read (addr n : Nat)
  | write (addr n : Nat) (value : Word)
deriving DecidableEq, Repr

/-- What the bus answers the host: the value read (0 for a write) and whether the access got the bus error
response (R56). -/
structure Response where
  data : Word
  busError : Bool
deriving DecidableEq, Repr

/-- Who moves next (R20, R64): the host with one access, the engine with its completion step (R92), or the
platform's reset input (R235). -/
inductive Turn where
  | host (a : Access)
  | engine
  | resetAssert
  | resetRelease
deriving DecidableEq, Repr

/-- The storage behind the window's buffer region (R52): DATA_IN at offsets 0x400 to 0x7FF and DATA_OUT at 0x800
to 0xBFF, as (offset, byte) pairs with rising offsets. An offset that is not listed holds no byte the spec
states: see `Memory.read`. -/
abbrev Memory := List Host.Cell

/-- The reasons a step may stop with a fault: there are none. R100 makes a command's outcome total, a bus error
is a response to the host after which the machine goes on (R56), and FAULT is a state of the engine, not a stop
of the machine (R96). Nobody raises one; safe. -/
inductive Fault where
deriving DecidableEq, Repr

/-- The reasons a step may refuse an instruction. -/
inductive Refusal where
  /-- Raised by an arm of `exec` whose instruction has no meaning yet; no arm of this model raises it. Safe: the
  model stops where the hardware goes on. -/
  | notModelled (mnemonic : String)
deriving DecidableEq, Repr

/-- The state: the record of R46, with the instance's parameters and the model's own fields. -/
structure State where
  /-- The instance's parameters BASE, SALT, KDF_VARIANT, BLOCK_CIPHER (R8, R33): no step changes them. -/
  cfg : Config
  /-- BUSY, 1 bit (R40). -/
  busy : Bool
  /-- LCMD, 32 bits: the accepted command word (R40). -/
  lcmd : Word
  /-- LDATA, 1024 bytes: the copy of DATA_IN taken at acceptance (R40). -/
  ldata : Vector Byte 1024
  /-- STATE (R34). -/
  fsm : Fsm
  /-- KEYV, 1 bit (R32). -/
  keyv : Bool
  /-- KEY, 32 bytes (R32). -/
  key : Key
  /-- IV, 16 bytes (R32). -/
  iv : Block
  /-- CDIR, 1 bit: true is 1, encrypt (R35). -/
  cdir : Bool
  /-- CKEY, 32 bytes (R35). -/
  ckey : Key
  /-- CV, 16 bytes (R35). -/
  cv : Block
  /-- CBUF, a byte string of length 0 to 15 (R36). -/
  cbuf : Bytes
  /-- HELD, 16 bytes (R37). -/
  held : Block
  /-- HELD_V, 1 bit (R37). -/
  heldv : Bool
  /-- HS, eight 32-bit words (R38). -/
  hs : HashWords
  /-- HLEN, a 61-bit count (R38). -/
  hlen : BitVec 61
  /-- HBUF, a byte string of length 0 to 63 (R38). -/
  hbuf : Bytes
  /-- DIGEST, 32 bytes (R39). -/
  digest : DigestBytes
  /-- CMD_OVR, 1 bit (R28). -/
  cmdOvr : Bool
  /-- ERRCODE, 32 bits (R29). -/
  errcode : Word
  /-- OUT_LEN, its bits [10:0]; bits [31:11] read 0 (R30). -/
  outLen : BitVec 11
  /-- DATA_IN and DATA_OUT, 1024 bytes each (R31, R52). -/
  mem : Memory
  /-- Whether the platform's reset input is asserted (R235). -/
  inReset : Bool
  /-- The model's own: the turns still to be taken, first one first. -/
  turns : List Turn
  /-- The model's own: the response to the host's last access; none before the first and after an access that
  does not reach the engine (R51). -/
  resp : Option Response
  /-- The model's own: how many unspecified bytes have been drawn (`Config.freeByte`). -/
  draws : Nat
  /-- The model's own: how many resets there were (`Config.dataInAtReset`). -/
  epoch : Nat
deriving DecidableEq, Repr

/-- R45: the state of an instance right after reset. DATA_IN and DATA_OUT are unspecified: nothing is listed. -/
def State.resetOf (c : Config) : State where
  cfg := c
  busy := false
  lcmd := 0
  ldata := Vector.replicate 1024 0
  fsm := .uninit
  keyv := false
  key := Vector.replicate 32 0
  iv := Vector.replicate 16 0
  cdir := false
  ckey := Vector.replicate 32 0
  cv := Vector.replicate 16 0
  cbuf := []
  held := Vector.replicate 16 0
  heldv := false
  hs := .zero
  hlen := 0
  hbuf := []
  digest := Vector.replicate 32 0
  cmdOvr := false
  errcode := 0
  outLen := 0
  mem := []
  inReset := false
  turns := []
  resp := none
  draws := 0
  epoch := 0

/-- R45, R235: the machine right after reset, for the standard instance (log entry 1). -/
def State.reset : State := State.resetOf Config.standard

end Sys2Proof.Machine
end

