-- ==== Sys2Proof/Machine/Flags.lean ====
section
/-! DEFINITION. The status flags and the error register (spec 10_state.md R25 to R30, R41; 40_command_model.md R98;
60_exceptions.md R210, R211): every flag the spec gives, as a function of the state. -/

namespace Sys2Proof.Machine

/-- R34: the 3-bit value of an FSM state. -/
def fsmCode : Fsm → BitVec 3
  | .uninit => 0
  | .cInit => 1
  | .cStream => 2
  | .cFinal => 3
  | .dInit => 4
  | .dAccum => 5
  | .dFinal => 6
  | .fault => 7

/-- R210: the value of ERRCODE.CODE. -/
def errCodeByte : ErrCode → BitVec 8
  | .none => 0x00
  | .seq => 0x01
  | .badcmd => 0x02
  | .badlen => 0x03
  | .kdfFail => 0x10
  | .initFail => 0x11
  | .updateFail => 0x12
  | .finalLen => 0x13
  | .finalPad => 0x14

/-- R98, R211: KIND(code): 0 none, 1 precondition, 2 cryptographic primitive. 3 (I/O) is never produced. -/
def errCodeKind : ErrCode → BitVec 2
  | .none => 0
  | .seq => 1
  | .badcmd => 1
  | .badlen => 1
  | .kdfFail => 2
  | .initFail => 2
  | .updateFail => 2
  | .finalLen => 2
  | .finalPad => 2

/-- R29, R98: the ERRCODE register for a code, KIND in bits [9:8] and CODE in bits [7:0]. -/
def errWord (c : ErrCode) : Word := 0#22 ++ errCodeKind c ++ errCodeByte c

/-- R29: ERRCODE.CODE. -/
def State.errByte (s : State) : Byte := s.errcode.extractLsb' 0 8

/-- R29: ERRCODE.KIND. -/
def State.errKind (s : State) : BitVec 2 := s.errcode.extractLsb' 8 2

/-- R26: STATUS.ERR is 1 exactly when ERRCODE.CODE is non-zero. -/
def State.errFlag (s : State) : Bool := s.errByte ≠ 0

/-- R41: STATUS.DIR reads CDIR while STATE is C_INIT, C_STREAM or C_FINAL, and 0 in every other state. -/
def State.dirFlag (s : State) : Bool :=
  match s.fsm with
  | .cInit => s.cdir
  | .cStream => s.cdir
  | .cFinal => s.cdir
  | .uninit => false
  | .dInit => false
  | .dAccum => false
  | .dFinal => false
  | .fault => false

/-- R25: the STATUS register: CMD_OVR [8], STATE [6:4], DIR [3], KEYV [2], ERR [1], BUSY [0], the rest 0. -/
def State.status (s : State) : Word :=
  0#23 ++ BitVec.ofBool s.cmdOvr ++ 0#1 ++ fsmCode s.fsm ++ BitVec.ofBool s.dirFlag
    ++ BitVec.ofBool s.keyv ++ BitVec.ofBool s.errFlag ++ BitVec.ofBool s.busy

/-- R30: the OUT_LEN register, its bits [31:11] zero. -/
def State.outLenWord (s : State) : Word := s.outLen.setWidth 32

end Sys2Proof.Machine
end

