-- ==== Sys2Proof/Machine/Ops.lean ====
section
/-! DEFINITION. The named operations over the state that several rules share: the window's storage, zeroizing
(spec 10_state.md R44), acceptance (R90), completion (R92), the three outcomes of a command (R95 to R97), entry to
FAULT (R96, R214), CLEAR's way out of it (R99, R216), and reset (R235). -/

namespace Sys2Proof.Machine

/-! ### The window's storage (R31, R52) -/

/-- The offset of DATA_IN[0] (R52). -/
@[simp] abbrev dataInOffset : Nat := 0x400
/-- The offset of DATA_OUT[0] (R52). -/
@[simp] abbrev dataOutOffset : Nat := 0x800
/-- The offset after DATA_OUT[1023] (R52). -/
@[simp] abbrev bufferEnd : Nat := 0xC00

/-- The byte stored at an offset; none where nothing has been written since reset. What the host reads there is
decided where it is read: a free value of DATA_IN (R45) or of DATA_OUT (R61). -/
def Memory.read : Memory → Nat → Option Byte
  | [], _ => none
  | (b, v) :: m, a => if b = a then some v else Memory.read m a

/-- The pairs of a byte string stored from offset a on. -/
def cellsFrom : Nat → Bytes → Memory
  | _, [] => []
  | a, v :: vs => (a, v) :: cellsFrom (a + 1) vs

/-- Store a byte string from offset a on (R53, R92). -/
def Memory.writeBytes (m : Memory) (a : Nat) (vs : Bytes) : Memory :=
  if vs.length = 0 then m
  else m.filter (fun c => c.1 < a) ++ cellsFrom a vs ++ m.filter (fun c => a + vs.length ≤ c.1)

/-- The offsets of a memory rise strictly. -/
def risingFrom : Nat → Memory → Bool
  | _, [] => true
  | a, (b, _) :: m => decide (a ≤ b) && risingFrom (b + 1) m

/-- The canonical form: offsets strictly rising, from 0x400 on and below 0xC00 (R52). Nothing listed equals what an
unlisted offset holds, since that is no value. -/
def Memory.wf (m : Memory) : Bool :=
  risingFrom dataInOffset m && m.all (fun c => c.1 < bufferEnd)

/-- R31: DATA_IN[i]: the byte last written, or the value drawn for it at reset (R45, U3). -/
def State.dataInByte (s : State) (i : Nat) : Byte :=
  (s.mem.read (dataInOffset + i)).getD (Config.dataInAtReset s.epoch i)

/-- R31, R90: all 1024 bytes of DATA_IN. -/
def State.dataIn (s : State) : Vector Byte 1024 := fit 1024 ((List.range 1024).map s.dataInByte)

/-- R31: what DATA_OUT[i] stores. -/
def State.dataOutByte (s : State) (i : Nat) : Option Byte := s.mem.read (dataOutOffset + i)

/-! ### Zeroizing (R44) -/

/-- R44: zeroize the cipher context: CKEY, CV, CBUF, HELD and HELD_V; CDIR is kept. -/
def zeroizeCipher (s : State) : State :=
  { s with ckey := zeros 32, cv := zeros 16, cbuf := [], held := zeros 16, heldv := false }

/-- R44: zeroize the hash context: HS, HLEN, HBUF. -/
def zeroizeHash (s : State) : State := { s with hs := .zero, hlen := 0, hbuf := [] }

/-- R44: zeroize key material: KEY, IV and KEYV. -/
def zeroizeKey (s : State) : State := { s with key := zeros 32, iv := zeros 16, keyv := false }

/-! ### Acceptance and completion (R90 to R92) -/

/-- R90: acceptance of a command word. Nothing else changes, and the word is not checked. -/
def accept (w : Word) (s : State) : State :=
  { s with lcmd := w, ldata := s.dataIn, busy := true, errcode := 0, outLen := 0 }

/-- R91: a CMD write while BUSY = 1 is dropped. -/
def dropCommand (s : State) : State := { s with cmdOvr := true }

/-- R92: completion, applied to the state with the command's own changes made: the output goes to DATA_OUT, its
length to OUT_LEN, the code to ERRCODE, and BUSY falls. -/
def complete (c : ErrCode) (out : Bytes) (s : State) : State :=
  { s with
    mem := s.mem.writeBytes dataOutOffset out
    outLen := BitVec.ofNat 11 out.length
    errcode := errWord c
    busy := false }

/-- R97: a command that succeeds, with its output. -/
def succeed (out : Bytes) (s : State) : Host.Outcome State Fault Refusal := .next (complete .none out s)

/-- R95: a precondition error (SEQ, BADCMD, BADLEN) changes no engine state and emits nothing. -/
def preconditionError (c : ErrCode) (s : State) : Host.Outcome State Fault Refusal := .next (complete c [] s)

/-! ### Taking and leaving FAULT, the engine's one trap-like event (R96, R214, R216) -/

/-- R96, R214: entry to FAULT zeroizes both contexts, the key material and DIGEST. Nothing is saved. -/
def enterFault (s : State) : State :=
  { zeroizeKey (zeroizeHash (zeroizeCipher s)) with digest := zeros 32, fsm := .fault }

/-- R96: a cryptographic error (INIT_FAIL, FINAL_LEN, FINAL_PAD) enters FAULT and emits nothing. -/
def cryptoError (c : ErrCode) (s : State) : Host.Outcome State Fault Refusal :=
  .next (complete c [] (enterFault s))

/-- R99, R216: what CLEAR does, the only way out of FAULT but reset. After it the state equals the reset state
except DATA_IN and DATA_OUT (R99, R237, D42), so the latches LCMD and LDATA are zeroed too, which its
pseudocode does not list: DEDUCED (log entry 5); no rule can observe it. -/
def clearContexts (s : State) : State :=
  { zeroizeKey (zeroizeHash (zeroizeCipher s)) with
    cdir := false
    digest := zeros 32
    cmdOvr := false
    fsm := .uninit
    lcmd := 0
    ldata := zeros 1024 }

/-! ### Reset (R45, R235, R236) -/

/-- R235, R236: the engine's elements take their reset values and a command in flight is abandoned; the instance's
parameters stay (R33), and so do the turns still to come and the count of drawn bytes. A new epoch gives
DATA_IN new unspecified bytes (U3). -/
def applyReset (asserted : Bool) (s : State) : State :=
  { State.resetOf s.cfg with
    inReset := asserted
    turns := s.turns
    draws := s.draws
    epoch := s.epoch + 1 }

end Sys2Proof.Machine
end

