-- ==== Sys2Proof/Machine/Bus.lean ====
section
/-! DEFINITION. The register window and the host's bus accesses (spec 20_memory.md R50 to R62, 10_state.md R23 to
R31). -/

namespace Sys2Proof.Machine

/-- R51: the window offset of a host address; none outside [BASE, BASE + 4096), where the access does not reach the
engine. -/
def windowOffset (c : Config) (addr : Nat) : Option Nat :=
  if c.base ≤ addr ∧ addr < c.base + windowBytes then some (addr - c.base) else none

/-- R52: the region an offset belongs to. -/
inductive Region where
  /-- 0x000 to 0x00F: CMD, STATUS, ERRCODE, OUT_LEN. -/
  | registers
  /-- 0x010 to 0x3FF and 0xC00 to 0xFFF: read as zero, writes ignored (R57). -/
  | reserved
  /-- 0x400 to 0x7FF. -/
  | dataIn
  /-- 0x800 to 0xBFF. -/
  | dataOut
deriving DecidableEq, Repr

/-- R52: the window's map. -/
def regionOf (off : Nat) : Region :=
  if off < 0x010 then .registers
  else if off < dataInOffset then .reserved
  else if off < dataOutOffset then .dataIn
  else if off < bufferEnd then .dataOut
  else .reserved

/-- R55: in 0x000 to 0x3FF only 32-bit accesses at multiples of 4 are legal; above, 8-bit accesses anywhere, 16-bit
ones at even offsets and 32-bit ones at multiples of 4. -/
def accessLegal (off n : Nat) : Bool :=
  if off < dataInOffset then n == 4 && off % 4 == 0
  else n == 1 || (n == 2 && off % 2 == 0) || (n == 4 && off % 4 == 0)

/-- R23, R24, R58: the 32-bit registers by offset; CMD reads 0. -/
def State.register (s : State) (off : Nat) : Word :=
  match off with
  | 0x000 => 0
  | 0x004 => s.status
  | 0x008 => s.errcode
  | 0x00C => s.outLenWord
  | _ => 0

/-- R60, R61: the byte a read finds at an offset of the buffer region; `draw` numbers the free value it takes where
the byte is unspecified: at index >= OUT_LEN, and anywhere while BUSY = 1. -/
def State.bufferByte (s : State) (draw off : Nat) : Byte :=
  match regionOf off with
  | .dataIn => s.dataInByte (off - dataInOffset)
  | .dataOut =>
    if s.busy = true ∨ s.outLen.toNat ≤ off - dataOutOffset then Config.freeByte draw
    else (s.dataOutByte (off - dataOutOffset)).getD (Config.freeByte draw)
  | .registers => 0
  | .reserved => 0

/-- R53: MemRead(off, n): the value of a legal read. -/
def State.readWindow (s : State) (off n : Nat) : Word :=
  if off < dataInOffset then s.register off
  else BitVec.ofNat 32 (leNat ((List.range n).map fun i => s.bufferByte (s.draws + i) (off + i)))

/-- R53, R57 to R60: MemWrite(off, n, v), a legal write: a CMD write issues a command (R90) or is dropped (R91), a
DATA_IN write stores its bytes, any other has no effect. -/
def writeWindow (off n : Nat) (v : Word) (s : State) : State :=
  match regionOf off with
  | .registers => if off = 0 then (if s.busy then dropCommand s else accept v s) else s
  | .dataIn => { s with mem := s.mem.writeBytes off (lanes v n) }
  | .dataOut => s
  | .reserved => s

/-- One host access (R50 to R62). Outside the window it does not reach the engine (R51); while reset is asserted
reads return 0 and writes have no effect (R235); an access that R55 does not make legal gets the bus error
response and changes nothing (R56). A read has no effect on the engine (R59); the model counts the bytes it may
have drawn. -/
def busAccess (a : Access) (s : State) : State :=
  match a with
  | .read addr n =>
    match windowOffset s.cfg addr with
    | none => { s with resp := none }
    | some off =>
      if s.inReset then { s with resp := some ⟨0, false⟩ }
      else if accessLegal off n then
        { s with resp := some ⟨s.readWindow off n, false⟩, draws := s.draws + n }
      else { s with resp := some ⟨0, true⟩ }
  | .write addr n v =>
    match windowOffset s.cfg addr with
    | none => { s with resp := none }
    | some off =>
      if s.inReset then { s with resp := some ⟨0, false⟩ }
      else if accessLegal off n then { writeWindow off n v s with resp := some ⟨0, false⟩ }
      else { s with resp := some ⟨0, true⟩ }

end Sys2Proof.Machine
end

