-- ==== Sys2Proof/Machine/Aes.lean ====
section
/-! DEFINITION. AES-256 (spec 42_cipher.md R146 to R157), the default BLOCK_CIPHER. -/

namespace Sys2Proof.Machine

/-! ### The state array (R147) and the field (R148) -/

/-- R147: s[r][c] of a 16-byte block: input byte i stands in row i mod 4, column i / 4. -/
def cellAt (s : Bytes) (r c : Nat) : Byte := s.getD (r + 4 * c) 0

/-- R147: the 16 bytes of the array whose cell in row r, column c is f r c. -/
def cellsOf (f : Nat → Nat → Byte) : Bytes := (List.range 16).map fun i => f (i % 4) (i / 4)

/-- R148: xtime(a), the product of a and 0x02. -/
def xtime (a : Byte) : Byte := (a <<< 1) ^^^ (if a.getLsbD 7 then 0x1B else 0x00)

/-- R148: xtime applied k times. -/
def xtimes : Nat → Byte → Byte
  | 0, a => a
  | k + 1, a => xtime (xtimes k a)

/-- R148: the product a • b: the XOR of xtime^k(a) over the bits k set in b. -/
def gfMul (a b : Byte) : Byte :=
  (List.range 8).foldl (fun acc k => if b.getLsbD k then acc ^^^ xtimes k a else acc) 0

/-! ### The S-boxes (R149, R150) -/

/-- R149: the S-box table, one row a high nibble. -/
def sboxTable : List Byte :=
  [0x63, 0x7c, 0x77, 0x7b, 0xf2, 0x6b, 0x6f, 0xc5, 0x30, 0x01, 0x67, 0x2b, 0xfe, 0xd7, 0xab, 0x76] ++
  [0xca, 0x82, 0xc9, 0x7d, 0xfa, 0x59, 0x47, 0xf0, 0xad, 0xd4, 0xa2, 0xaf, 0x9c, 0xa4, 0x72, 0xc0] ++
  [0xb7, 0xfd, 0x93, 0x26, 0x36, 0x3f, 0xf7, 0xcc, 0x34, 0xa5, 0xe5, 0xf1, 0x71, 0xd8, 0x31, 0x15] ++
  [0x04, 0xc7, 0x23, 0xc3, 0x18, 0x96, 0x05, 0x9a, 0x07, 0x12, 0x80, 0xe2, 0xeb, 0x27, 0xb2, 0x75] ++
  [0x09, 0x83, 0x2c, 0x1a, 0x1b, 0x6e, 0x5a, 0xa0, 0x52, 0x3b, 0xd6, 0xb3, 0x29, 0xe3, 0x2f, 0x84] ++
  [0x53, 0xd1, 0x00, 0xed, 0x20, 0xfc, 0xb1, 0x5b, 0x6a, 0xcb, 0xbe, 0x39, 0x4a, 0x4c, 0x58, 0xcf] ++
  [0xd0, 0xef, 0xaa, 0xfb, 0x43, 0x4d, 0x33, 0x85, 0x45, 0xf9, 0x02, 0x7f, 0x50, 0x3c, 0x9f, 0xa8] ++
  [0x51, 0xa3, 0x40, 0x8f, 0x92, 0x9d, 0x38, 0xf5, 0xbc, 0xb6, 0xda, 0x21, 0x10, 0xff, 0xf3, 0xd2] ++
  [0xcd, 0x0c, 0x13, 0xec, 0x5f, 0x97, 0x44, 0x17, 0xc4, 0xa7, 0x7e, 0x3d, 0x64, 0x5d, 0x19, 0x73] ++
  [0x60, 0x81, 0x4f, 0xdc, 0x22, 0x2a, 0x90, 0x88, 0x46, 0xee, 0xb8, 0x14, 0xde, 0x5e, 0x0b, 0xdb] ++
  [0xe0, 0x32, 0x3a, 0x0a, 0x49, 0x06, 0x24, 0x5c, 0xc2, 0xd3, 0xac, 0x62, 0x91, 0x95, 0xe4, 0x79] ++
  [0xe7, 0xc8, 0x37, 0x6d, 0x8d, 0xd5, 0x4e, 0xa9, 0x6c, 0x56, 0xf4, 0xea, 0x65, 0x7a, 0xae, 0x08] ++
  [0xba, 0x78, 0x25, 0x2e, 0x1c, 0xa6, 0xb4, 0xc6, 0xe8, 0xdd, 0x74, 0x1f, 0x4b, 0xbd, 0x8b, 0x8a] ++
  [0x70, 0x3e, 0xb5, 0x66, 0x48, 0x03, 0xf6, 0x0e, 0x61, 0x35, 0x57, 0xb9, 0x86, 0xc1, 0x1d, 0x9e] ++
  [0xe1, 0xf8, 0x98, 0x11, 0x69, 0xd9, 0x8e, 0x94, 0x9b, 0x1e, 0x87, 0xe9, 0xce, 0x55, 0x28, 0xdf] ++
  [0x8c, 0xa1, 0x89, 0x0d, 0xbf, 0xe6, 0x42, 0x68, 0x41, 0x99, 0x2d, 0x0f, 0xb0, 0x54, 0xbb, 0x16]

/-- R150: the inverse S-box table, one row a high nibble. -/
def invSboxTable : List Byte :=
  [0x52, 0x09, 0x6a, 0xd5, 0x30, 0x36, 0xa5, 0x38, 0xbf, 0x40, 0xa3, 0x9e, 0x81, 0xf3, 0xd7, 0xfb] ++
  [0x7c, 0xe3, 0x39, 0x82, 0x9b, 0x2f, 0xff, 0x87, 0x34, 0x8e, 0x43, 0x44, 0xc4, 0xde, 0xe9, 0xcb] ++
  [0x54, 0x7b, 0x94, 0x32, 0xa6, 0xc2, 0x23, 0x3d, 0xee, 0x4c, 0x95, 0x0b, 0x42, 0xfa, 0xc3, 0x4e] ++
  [0x08, 0x2e, 0xa1, 0x66, 0x28, 0xd9, 0x24, 0xb2, 0x76, 0x5b, 0xa2, 0x49, 0x6d, 0x8b, 0xd1, 0x25] ++
  [0x72, 0xf8, 0xf6, 0x64, 0x86, 0x68, 0x98, 0x16, 0xd4, 0xa4, 0x5c, 0xcc, 0x5d, 0x65, 0xb6, 0x92] ++
  [0x6c, 0x70, 0x48, 0x50, 0xfd, 0xed, 0xb9, 0xda, 0x5e, 0x15, 0x46, 0x57, 0xa7, 0x8d, 0x9d, 0x84] ++
  [0x90, 0xd8, 0xab, 0x00, 0x8c, 0xbc, 0xd3, 0x0a, 0xf7, 0xe4, 0x58, 0x05, 0xb8, 0xb3, 0x45, 0x06] ++
  [0xd0, 0x2c, 0x1e, 0x8f, 0xca, 0x3f, 0x0f, 0x02, 0xc1, 0xaf, 0xbd, 0x03, 0x01, 0x13, 0x8a, 0x6b] ++
  [0x3a, 0x91, 0x11, 0x41, 0x4f, 0x67, 0xdc, 0xea, 0x97, 0xf2, 0xcf, 0xce, 0xf0, 0xb4, 0xe6, 0x73] ++
  [0x96, 0xac, 0x74, 0x22, 0xe7, 0xad, 0x35, 0x85, 0xe2, 0xf9, 0x37, 0xe8, 0x1c, 0x75, 0xdf, 0x6e] ++
  [0x47, 0xf1, 0x1a, 0x71, 0x1d, 0x29, 0xc5, 0x89, 0x6f, 0xb7, 0x62, 0x0e, 0xaa, 0x18, 0xbe, 0x1b] ++
  [0xfc, 0x56, 0x3e, 0x4b, 0xc6, 0xd2, 0x79, 0x20, 0x9a, 0xdb, 0xc0, 0xfe, 0x78, 0xcd, 0x5a, 0xf4] ++
  [0x1f, 0xdd, 0xa8, 0x33, 0x88, 0x07, 0xc7, 0x31, 0xb1, 0x12, 0x10, 0x59, 0x27, 0x80, 0xec, 0x5f] ++
  [0x60, 0x51, 0x7f, 0xa9, 0x19, 0xb5, 0x4a, 0x0d, 0x2d, 0xe5, 0x7a, 0x9f, 0x93, 0xc9, 0x9c, 0xef] ++
  [0xa0, 0xe0, 0x3b, 0x4d, 0xae, 0x2a, 0xf5, 0xb0, 0xc8, 0xeb, 0xbb, 0x3c, 0x83, 0x53, 0x99, 0x61] ++
  [0x17, 0x2b, 0x04, 0x7e, 0xba, 0x77, 0xd6, 0x26, 0xe1, 0x69, 0x14, 0x63, 0x55, 0x21, 0x0c, 0x7d]

/-- R149: S(a). -/
def sbox (a : Byte) : Byte := sboxTable.getD a.toNat 0

/-- R150: InvS(a). -/
def invSbox (a : Byte) : Byte := invSboxTable.getD a.toNat 0

/-! ### Key expansion (R151, R152) -/

/-- R151: Rcon[j] as a word, (xtime^(j-1)(0x01), 0, 0, 0). -/
def rcon (j : Nat) : Bytes := [xtimes (j - 1) 0x01, 0x00, 0x00, 0x00]

/-- R152: RotWord(a0, a1, a2, a3) = (a1, a2, a3, a0). -/
def rotWord (t : Bytes) : Bytes := t.drop 1 ++ t.take 1

/-- R152: SubWord, S on each byte. -/
def subWord (t : Bytes) : Bytes := t.map sbox

/-- R152: the first 8 + n words of the key schedule. -/
def keyWordsTo (k : Bytes) : Nat → List Bytes
  | 0 => splitBlocks 4 8 k
  | n + 1 =>
    let w := keyWordsTo k n
    let i := n + 8
    let p := w.getD (i - 1) []
    let t :=
      if i % 8 = 0 then xorBytes (subWord (rotWord p)) (rcon (i / 8))
      else if i % 8 = 4 then subWord p
      else p
    w ++ [xorBytes (w.getD (i - 8) []) t]

/-- R152: KeyExpand(K), the words w[0..59]. -/
def keyExpand (k : Key) : List Bytes := keyWordsTo k.toList 52

/-! ### The round transformations and their inverses (R153, R154) -/

/-- R153: SubBytes. -/
def subBytes (s : Bytes) : Bytes := cellsOf fun r c => sbox (cellAt s r c)

/-- R153: ShiftRows, s'[r][c] = s[r][(c + r) mod 4]. -/
def shiftRows (s : Bytes) : Bytes := cellsOf fun r c => cellAt s r ((c + r) % 4)

/-- R153: row r of a MixColumns column (a0, a1, a2, a3). -/
def mixColumn (r : Nat) (a0 a1 a2 a3 : Byte) : Byte :=
  match r with
  | 0 => gfMul a0 0x02 ^^^ gfMul a1 0x03 ^^^ a2 ^^^ a3
  | 1 => a0 ^^^ gfMul a1 0x02 ^^^ gfMul a2 0x03 ^^^ a3
  | 2 => a0 ^^^ a1 ^^^ gfMul a2 0x02 ^^^ gfMul a3 0x03
  | _ => gfMul a0 0x03 ^^^ a1 ^^^ a2 ^^^ gfMul a3 0x02

/-- R153: MixColumns. -/
def mixColumns (s : Bytes) : Bytes :=
  cellsOf fun r c => mixColumn r (cellAt s 0 c) (cellAt s 1 c) (cellAt s 2 c) (cellAt s 3 c)

/-- R153: AddRoundKey(r), word c of round key r on column c. -/
def addRoundKey (w : List Bytes) (rnd : Nat) (s : Bytes) : Bytes :=
  cellsOf fun j c => cellAt s j c ^^^ (w.getD (4 * rnd + c) []).getD j 0

/-- R154: InvSubBytes. -/
def invSubBytes (s : Bytes) : Bytes := cellsOf fun r c => invSbox (cellAt s r c)

/-- R154: InvShiftRows, s'[r][(c + r) mod 4] = s[r][c]: row r rotates right by r. -/
def invShiftRows (s : Bytes) : Bytes := cellsOf fun r c => cellAt s r ((c + 4 - r) % 4)

/-- R154: row r of an InvMixColumns column (a0, a1, a2, a3). -/
def invMixColumn (r : Nat) (a0 a1 a2 a3 : Byte) : Byte :=
  match r with
  | 0 => gfMul a0 0x0e ^^^ gfMul a1 0x0b ^^^ gfMul a2 0x0d ^^^ gfMul a3 0x09
  | 1 => gfMul a0 0x09 ^^^ gfMul a1 0x0e ^^^ gfMul a2 0x0b ^^^ gfMul a3 0x0d
  | 2 => gfMul a0 0x0d ^^^ gfMul a1 0x09 ^^^ gfMul a2 0x0e ^^^ gfMul a3 0x0b
  | _ => gfMul a0 0x0b ^^^ gfMul a1 0x0d ^^^ gfMul a2 0x09 ^^^ gfMul a3 0x0e

/-- R154: InvMixColumns. -/
def invMixColumns (s : Bytes) : Bytes :=
  cellsOf fun r c => invMixColumn r (cellAt s 0 c) (cellAt s 1 c) (cellAt s 2 c) (cellAt s 3 c)

/-! ### The cipher and the inverse cipher (R155, R156) -/

/-- R155: rounds 1 to n. -/
def aesRounds (w : List Bytes) : Nat → Bytes → Bytes
  | 0, s => s
  | n + 1, s => addRoundKey w (n + 1) (mixColumns (shiftRows (subBytes (aesRounds w n s))))

/-- R156: rounds n down to 1. -/
def aesInvRounds (w : List Bytes) : Nat → Bytes → Bytes
  | 0, s => s
  | n + 1, s => aesInvRounds w n (invMixColumns (addRoundKey w (n + 1) (invSubBytes (invShiftRows s))))

/-- R155: E(K, x) of AES256. -/
def aesEncrypt (k : Key) (x : Block) : Block :=
  let w := keyExpand k
  fit 16 (addRoundKey w 14 (shiftRows (subBytes (aesRounds w 13 (addRoundKey w 0 x.toList)))))

/-- R156: D(K, y) of AES256. -/
def aesDecrypt (k : Key) (y : Block) : Block :=
  let w := keyExpand k
  fit 16 (addRoundKey w 0 (invSubBytes (invShiftRows (aesInvRounds w 13 (addRoundKey w 14 y.toList)))))

end Sys2Proof.Machine
end

