-- ==== Sys2Proof/Machine/Cbc.lean ====
section
/-! DEFINITION. The block cipher the instance selects (spec 00_scope.md R8, 42_cipher.md R146), cipher-block chaining
(R127, R128), the streaming updates with their partial-block and held-block buffers (R132, R133), and the
padding (R140). -/

namespace Sys2Proof.Machine

/-- R146: one exchange of a given cipher, under the key k. -/
def swapUnder (k : Key) (x : Block) (w : BlockSwap) : Block :=
  if w.key = k then
    if x = w.left then w.right else if x = w.right then w.left else x
  else x

/-- R8, R146: E(K, x) of the selected block cipher. -/
def blockEncrypt : BlockCipher → Key → Block → Block
  | .aes256 => aesEncrypt
  | .custom swaps => fun k x => swaps.foldl (swapUnder k) x

/-- R8, R146: D(K, y) of the selected block cipher. -/
def blockDecrypt : BlockCipher → Key → Block → Block
  | .aes256 => aesDecrypt
  | .custom swaps => fun k y => swaps.reverse.foldl (swapUnder k) y

/-- R127: CBC encryption of complete blocks, chained to `cv`: the new chaining value and the ciphertext. -/
def cbcEncrypt (e : Block → Block) : Block → List Bytes → Block × Bytes
  | cv, [] => (cv, [])
  | cv, b :: bs =>
    let cb := e (xorBlock (fit 16 b) cv)
    let rest := cbcEncrypt e cb bs
    (rest.1, cb.toList ++ rest.2)

/-- R128: CBC decryption of complete blocks, chained to `cv`: the new chaining value and the plaintext. -/
def cbcDecrypt (d : Block → Block) : Block → List Bytes → Block × Bytes
  | cv, [] => (cv, [])
  | cv, b :: bs =>
    let cb : Block := fit 16 b
    let pb := xorBlock (d cb) cv
    let rest := cbcDecrypt d cb bs
    (rest.1, pb.toList ++ rest.2)

/-- R35 to R37: the part of a cipher context that an update changes. -/
structure CipherStream where
  cv : Block
  cbuf : Bytes
  held : Block
  heldv : Bool
deriving DecidableEq, Repr

/-- R132: EncUpdate(d): the changed context and the output. -/
def encUpdate (e : Block → Block) (x : CipherStream) (d : Bytes) : CipherStream × Bytes :=
  let t := x.cbuf ++ d
  let nb := t.length / 16
  let r := cbcEncrypt e x.cv (splitBlocks 16 nb t)
  ({ x with cv := r.1, cbuf := t.drop (16 * nb) }, r.2)

/-- R133: the release of the block held back last time: the context without it, and its bytes. -/
def releaseHeld (x : CipherStream) : CipherStream × Bytes :=
  if x.heldv then ({ x with held := zeros 16, heldv := false }, x.held.toList) else (x, [])

/-- R133: DecUpdate(d): the changed context and the output. When the input so far ends on a block boundary the block
just decrypted is held back. -/
def decUpdate (dec : Block → Block) (x : CipherStream) (d : Bytes) : CipherStream × Bytes :=
  let rel := releaseHeld x
  let t := x.cbuf ++ d
  let nb := t.length / 16
  let r := cbcDecrypt dec x.cv (splitBlocks 16 nb t)
  let out := rel.2 ++ r.2
  let rest := t.drop (16 * nb)
  if 0 < nb ∧ rest.length = 0 then
    ({ cv := r.1, cbuf := rest, held := fit 16 (out.drop (out.length - 16)), heldv := true },
      out.take (out.length - 16))
  else ({ rel.1 with cv := r.1, cbuf := rest }, out)

/-- R140: Pad(b), a final partial block filled up with p = 16 - len(b) bytes of value p. -/
def padBlock (b : Bytes) : Bytes := b ++ List.replicate (16 - b.length) (BitVec.ofNat 8 (16 - b.length))

/-- R141: EncFinal(): the encrypted padded block. -/
def encFinal (e : Block → Block) (x : CipherStream) : Bytes := (e (xorBlock (fit 16 (padBlock x.cbuf)) x.cv)).toList

/-- R140: a padded block is valid when its last byte p satisfies 1 <= p <= 16 and its last p bytes all equal p. -/
def padValid (b : Bytes) : Bool :=
  let p := b.getD 15 0
  decide (1 ≤ p.toNat) && decide (p.toNat ≤ 16) && (b.drop (16 - p.toNat)).all (· == p)

/-- R142: a padded block without its padding, `take(HELD, 16 - p)`. -/
def padStrip (b : Bytes) : Bytes := b.take (16 - (b.getD 15 0).toNat)

end Sys2Proof.Machine
end

