-- ==== Sys2Proof/Syntax.lean ====
section
/-! DEFINITION. The command set: one constructor per row of spec/opcode_table.json (30_encoding.md R76). -/

namespace Sys2Proof

/-- A command of the engine (R76), with the fields its row admits (R71): DIR for CIPHER_INIT, LEN for KDF,
CIPHER_UPDATE and DIGEST_UPDATE. LEN is the 11-bit field as encoded (R74). -/
inductive Instr where
  /-- CLEAR (R99). -/
  | clear
  /-- KDF #len (R110). -/
  | kdf (len : BitVec 11)
  /-- CIPHER_INIT (R126); dir = true is DIR = 1, encrypt (R73). -/
  | cipherInit (dir : Bool)
  /-- CIPHER_UPDATE #len (R131). -/
  | cipherUpdate (len : BitVec 11)
  /-- CIPHER_FINAL (R139). -/
  | cipherFinal
  /-- DIGEST_INIT (R160). -/
  | digestInit
  /-- DIGEST_UPDATE #len (R161). -/
  | digestUpdate (len : BitVec 11)
  /-- DIGEST_FINAL (R162). -/
  | digestFinal
  /-- HEX (R186). -/
  | hex
deriving DecidableEq, Repr

end Sys2Proof
end

