-- ==== Sys2Proof/WellFormed.lean ====
section
/-! DEFINITION. Which commands are well formed: the LEN range of the opcode map (30_encoding.md R76, R74). -/

namespace Sys2Proof

/-- R74, R76: a legal LEN is 0 to 1024; 1025 to 2047 are encodable but illegal. -/
def lenLegal (len : BitVec 11) : Bool := len.toNat ≤ chunkMax

/-- R76: the fields of a command are in range. DIR, and the absence of a field, need no check: the constructor
admits no other value. -/
def Instr.wf : Instr → Bool
  | .clear => true
  | .kdf len => lenLegal len
  | .cipherInit _ => true
  | .cipherUpdate len => lenLegal len
  | .cipherFinal => true
  | .digestInit => true
  | .digestUpdate len => lenLegal len
  | .digestFinal => true
  | .hex => true

end Sys2Proof
end

