-- ==== Sys2Proof/Decode.lean ====
section
/-! DEFINITION. The command word: its fields, the decoder, the encoder and the table's selecting patterns
(spec 30_encoding.md R70 to R80). -/

namespace Sys2Proof

/-! ### The fields of CMD32 (R71) -/

/-- R71, R72: OP is bits [3:0]. -/
def opField (w : Word) : BitVec 4 := w.extractLsb' 0 4

/-- R71, R73: DIR is bit [4]. -/
def dirField (w : Word) : Bool := w.getLsbD 4

/-- R71, R75: RES0 is bits [15:5]. -/
def res0Field (w : Word) : BitVec 11 := w.extractLsb' 5 11

/-- R71, R74: LEN is bits [26:16], unsigned and unscaled. -/
def lenField (w : Word) : BitVec 11 := w.extractLsb' 16 11

/-- R71, R75: RES1 is bits [31:27]. -/
def res1Field (w : Word) : BitVec 5 := w.extractLsb' 27 5

/-! ### Decoding (R76 to R78) -/

/-- R78: what decoding a command word gives. -/
inductive Verdict where
  /-- Rejected with BADCMD, code 0x02 (R77, R78). -/
  | badcmd
  /-- Rejected with BADLEN, code 0x03 (R78). -/
  | badlen
  /-- The command of R76's row. -/
  | command (i : Instr)
deriving DecidableEq, Repr

/-- R76: the row of an opcode, with the fields it admits; none for the reserved opcodes 0x0 and 0xA to 0xF (R77). -/
def opcodeRow (op : BitVec 4) (dir : Bool) (len : BitVec 11) : Option Instr :=
  match op.toNat with
  | 0x1 => some .clear
  | 0x2 => some (.kdf len)
  | 0x3 => some (.cipherInit dir)
  | 0x4 => some (.cipherUpdate len)
  | 0x5 => some .cipherFinal
  | 0x6 => some .digestInit
  | 0x7 => some (.digestUpdate len)
  | 0x8 => some .digestFinal
  | 0x9 => some .hex
  | _ => none

/-- R76, R78: the opcodes that take data (KDF, CIPHER_UPDATE, DIGEST_UPDATE). -/
def takesData (op : BitVec 4) : Bool := op == 0x2 || op == 0x4 || op == 0x7

/-- R78: decoding, a total function of the word; the checks are made in the order written. -/
def decode (w : Word) : Verdict :=
  match opcodeRow (opField w) (dirField w) (lenField w) with
  | none => .badcmd
  | some i =>
    if res0Field w ≠ 0 ∨ res1Field w ≠ 0 then .badcmd
    else if dirField w = true ∧ opField w ≠ 0x3 then .badcmd
    else if ¬ lenLegal (lenField w) then .badlen
    else if lenField w ≠ 0 ∧ ¬ takesData (opField w) then .badlen
    else .command i

/-- The instruction the decoder reads from an instruction whose low `nbits` bits are those of `w` and whose
further bits are zero. A command is one 32-bit word (R70): bits past 31 are no part of it. -/
def decodeTableWord (nbits w : Nat) : Option Instr :=
  match decode (BitVec.ofNat 32 (w % 2 ^ nbits)) with
  | .command i => some i
  | .badcmd => none
  | .badlen => none

/-! ### Encoding (R71, R76, R79) -/

/-- R71: a command word from its fields, the reserved ones zero. -/
def commandWord (op : BitVec 4) (dir : Bool) (len : BitVec 11) : Word :=
  0#5 ++ len ++ 0#11 ++ BitVec.ofBool dir ++ op

/-- R76, R79: the word of a command. -/
def encode : Instr → Word
  | .clear => commandWord 0x1 false 0
  | .kdf len => commandWord 0x2 false len
  | .cipherInit dir => commandWord 0x3 dir 0
  | .cipherUpdate len => commandWord 0x4 false len
  | .cipherFinal => commandWord 0x5 false 0
  | .digestInit => commandWord 0x6 false 0
  | .digestUpdate len => commandWord 0x7 false len
  | .digestFinal => commandWord 0x8 false 0
  | .hex => commandWord 0x9 false 0

/-! ### Selecting patterns (R79) -/

/-- A row of R79's table: the word matches when its bits under the mask are the match value. -/
structure Pattern where
  name : String
  matchBits : Word
  mask : Word
deriving DecidableEq, Repr

/-- R79: a word matches a row. -/
def Pattern.fits (p : Pattern) (w : Word) : Bool := w &&& p.mask == p.matchBits

/-- R79: the table of selecting patterns, one row a mnemonic. -/
def patterns : List Pattern :=
  [⟨"CLEAR", 0x00000001, 0xFFFFFFFF⟩,
   ⟨"KDF", 0x00000002, 0xF800FFFF⟩,
   ⟨"CIPHER_INIT", 0x00000003, 0xFFFFFFEF⟩,
   ⟨"CIPHER_UPDATE", 0x00000004, 0xF800FFFF⟩,
   ⟨"CIPHER_FINAL", 0x00000005, 0xFFFFFFFF⟩,
   ⟨"DIGEST_INIT", 0x00000006, 0xFFFFFFFF⟩,
   ⟨"DIGEST_UPDATE", 0x00000007, 0xF800FFFF⟩,
   ⟨"DIGEST_FINAL", 0x00000008, 0xFFFFFFFF⟩,
   ⟨"HEX", 0x00000009, 0xFFFFFFFF⟩]

/-- The mnemonic of a command in spec/opcode_table.json and R79. -/
def mnemonic : Instr → String
  | .clear => "CLEAR"
  | .kdf _ => "KDF"
  | .cipherInit _ => "CIPHER_INIT"
  | .cipherUpdate _ => "CIPHER_UPDATE"
  | .cipherFinal => "CIPHER_FINAL"
  | .digestInit => "DIGEST_INIT"
  | .digestUpdate _ => "DIGEST_UPDATE"
  | .digestFinal => "DIGEST_FINAL"
  | .hex => "HEX"

end Sys2Proof
end

