-- ==== Sys2Proof/Machine/Operands.lean ====
section
/-! DEFINITION. Operand forms and legality checks of the commands (spec 30_encoding.md R72 to R74, 40_command_model.md
R93, R94). -/

namespace Sys2Proof.Machine

/-- R74: the data operand of a command with LEN = n: `take(LDATA, n)`, the bytes DATA_IN[0] to DATA_IN[n-1] at
acceptance. -/
def State.operand (s : State) (len : BitVec 11) : Bytes := s.ldata.toList.take len.toNat

/-- R34, R94: the idle states UNINIT, C_FINAL and D_FINAL, where KDF, CIPHER_INIT and DIGEST_INIT are legal. -/
def Fsm.idle (f : Fsm) : Bool := f == .uninit || f == .cFinal || f == .dFinal

/-- R94: the states of a bound cipher context, where CIPHER_UPDATE and CIPHER_FINAL are legal. -/
def Fsm.inCipher (f : Fsm) : Bool := f == .cInit || f == .cStream

/-- R94: the states of a bound hash context, where DIGEST_UPDATE and DIGEST_FINAL are legal. -/
def Fsm.inDigest (f : Fsm) : Bool := f == .dInit || f == .dAccum

/-- R94: HEX is legal in D_FINAL only. -/
def Fsm.digestReady (f : Fsm) : Bool := f == .dFinal

/-- R93, R94, R212: a command's checks in their order, BADLEN (LEN > 1024) before SEQ, and then the command's own
rule. -/
def checked (lenOk legal : Bool) (s : State) (rule : State → Host.Outcome State Fault Refusal) :
    Host.Outcome State Fault Refusal :=
  if lenOk then
    if legal then rule s else preconditionError .seq s
  else preconditionError .badlen s

end Sys2Proof.Machine
end

