-- ==== Sys2Proof/Machine/Cipher.lean ====
section
/-! DEFINITION. Cipher mode: CIPHER_INIT, CIPHER_UPDATE, CIPHER_FINAL (spec 42_cipher.md R126, R131, R139). -/

namespace Sys2Proof.Machine

/-- R35 to R37: the streaming part of the cipher context. -/
def State.stream (s : State) : CipherStream := ⟨s.cv, s.cbuf, s.held, s.heldv⟩

/-- R131: what an update leaves: the streaming part replaced, STATE C_STREAM. -/
def advanceStream (x : CipherStream) (s : State) : State :=
  { s with cv := x.cv, cbuf := x.cbuf, held := x.held, heldv := x.heldv, fsm := .cStream }

/-- R127: E under the context's key. -/
def State.enc (s : State) : Block → Block := blockEncrypt s.cfg.blockCipher s.ckey

/-- R128: D under the context's key. -/
def State.dec (s : State) : Block → Block := blockDecrypt s.cfg.blockCipher s.ckey

/-- R126: the cipher context bound to the key material, which is consumed. -/
def bindCipher (dir : Bool) (s : State) : State :=
  { zeroizeHash s with
    digest := zeros 32
    cdir := dir
    ckey := s.key
    cv := s.iv
    cbuf := []
    held := zeros 16
    heldv := false
    key := zeros 32
    iv := zeros 16
    keyv := false
    fsm := .cInit }

/-- R126: CIPHER_INIT. Without key material it fails with INIT_FAIL. -/
def execCipherInit (dir : Bool) (s : State) : Host.Outcome State Fault Refusal :=
  checked true s.fsm.idle s fun s =>
    if s.keyv then succeed [] (bindCipher dir s) else cryptoError .initFail s

/-- R131 to R133: the update in the context's direction. -/
def State.update (s : State) (d : Bytes) : CipherStream × Bytes :=
  if s.cdir then encUpdate s.enc s.stream d else decUpdate s.dec s.stream d

/-- R131: CIPHER_UPDATE. A zero-length update changes only STATE. -/
def execCipherUpdate (len : BitVec 11) (s : State) : Host.Outcome State Fault Refusal :=
  checked (lenLegal len) s.fsm.inCipher s fun s =>
    if len = 0 then succeed [] { s with fsm := .cStream }
    else succeed (s.update (s.operand len)).2 (advanceStream (s.update (s.operand len)).1 s)

/-- R139: what a successful CIPHER_FINAL leaves: the context zeroized, CDIR kept. -/
def closeCipher (s : State) : State := { zeroizeCipher s with fsm := .cFinal }

/-- R139, R141, R142: CIPHER_FINAL. Decryption checks FINAL_LEN before FINAL_PAD. -/
def execCipherFinal (s : State) : Host.Outcome State Fault Refusal :=
  checked true s.fsm.inCipher s fun s =>
    if s.cdir then succeed (encFinal s.enc s.stream) (closeCipher s)
    else if s.cbuf.length ≠ 0 ∨ s.heldv = false then cryptoError .finalLen s
    else if padValid s.held.toList then succeed (padStrip s.held.toList) (closeCipher s)
    else cryptoError .finalPad s

end Sys2Proof.Machine
end

