-- ==== Sys2Proof/Machine/Control.lean ====
section
/-! DEFINITION. CLEAR (spec 40_command_model.md R99). -/

namespace Sys2Proof.Machine

/-- R99: CLEAR is legal in every state, FAULT included, and returns the control logic to its reset state. -/
def execClear (s : State) : Host.Outcome State Fault Refusal := succeed [] (clearContexts s)

end Sys2Proof.Machine
end

