-- ==== Sys2Proof/Machine/Sha256.lean ====
section
/-! DEFINITION. SHA-256 (spec 43_digest.md R163 to R171): the only digest of the engine. -/

namespace Sys2Proof.Machine

/-- R165: ROTR^k, the 32-bit right rotation (R9). -/
def rotr32 (x : Word) (k : Nat) : Word := (x >>> k) ||| (x <<< (32 - k))

/-- R165: Ch. -/
def shaCh (x y z : Word) : Word := (x &&& y) ^^^ (~~~x &&& z)

/-- R165: Maj. -/
def shaMaj (x y z : Word) : Word := (x &&& y) ^^^ (x &&& z) ^^^ (y &&& z)

/-- R165: Sigma0. -/
def bigSigma0 (x : Word) : Word := rotr32 x 2 ^^^ rotr32 x 13 ^^^ rotr32 x 22

/-- R165: Sigma1. -/
def bigSigma1 (x : Word) : Word := rotr32 x 6 ^^^ rotr32 x 11 ^^^ rotr32 x 25

/-- R165: sigma0. -/
def smallSigma0 (x : Word) : Word := rotr32 x 7 ^^^ rotr32 x 18 ^^^ (x >>> 3)

/-- R165: sigma1. -/
def smallSigma1 (x : Word) : Word := rotr32 x 17 ^^^ rotr32 x 19 ^^^ (x >>> 10)

/-- R166: the 64 round constants K[0..63], eight a row. -/
def shaK : List Word :=
  [0x428a2f98, 0x71374491, 0xb5c0fbcf, 0xe9b5dba5, 0x3956c25b, 0x59f111f1, 0x923f82a4, 0xab1c5ed5] ++
  [0xd807aa98, 0x12835b01, 0x243185be, 0x550c7dc3, 0x72be5d74, 0x80deb1fe, 0x9bdc06a7, 0xc19bf174] ++
  [0xe49b69c1, 0xefbe4786, 0x0fc19dc6, 0x240ca1cc, 0x2de92c6f, 0x4a7484aa, 0x5cb0a9dc, 0x76f988da] ++
  [0x983e5152, 0xa831c66d, 0xb00327c8, 0xbf597fc7, 0xc6e00bf3, 0xd5a79147, 0x06ca6351, 0x14292967] ++
  [0x27b70a85, 0x2e1b2138, 0x4d2c6dfc, 0x53380d13, 0x650a7354, 0x766a0abb, 0x81c2c92e, 0x92722c85] ++
  [0xa2bfe8a1, 0xa81a664b, 0xc24b8b70, 0xc76c51a3, 0xd192e819, 0xd6990624, 0xf40e3585, 0x106aa070] ++
  [0x19a4c116, 0x1e376c08, 0x2748774c, 0x34b0bcb5, 0x391c0cb3, 0x4ed8aa4a, 0x5b9cca4f, 0x682e6ff3] ++
  [0x748f82ee, 0x78a5636f, 0x84c87814, 0x8cc70208, 0x90befffa, 0xa4506ceb, 0xbef9a3f7, 0xc67178f2]

/-- R167: the initial hash value H0[0..7]. -/
def shaH0 : HashWords :=
  ⟨0x6a09e667, 0xbb67ae85, 0x3c6ef372, 0xa54ff53a, 0x510e527f, 0x9b05688c, 0x1f83d9ab, 0x5be0cd19⟩

/-- R168: the first 16 + n words of the message schedule of a 64-byte block. -/
def shaScheduleTo (block : Bytes) : Nat → List Word
  | 0 => (splitBlocks 4 16 block).map be32
  | n + 1 =>
    let w := shaScheduleTo block n
    let t := n + 16
    w ++ [smallSigma1 (w.getD (t - 2) 0) + w.getD (t - 7) 0
      + smallSigma0 (w.getD (t - 15) 0) + w.getD (t - 16) 0]

/-- R168: the message schedule W[0..63] of a 64-byte block. -/
def shaSchedule (block : Bytes) : List Word := shaScheduleTo block 48

/-- R169: one round on the working variables (a, b, c, d, e, f, g, h) with K[t] and W[t]. -/
def shaRound (v : HashWords) (k w : Word) : HashWords :=
  let t1 := v.w7 + bigSigma1 v.w4 + shaCh v.w4 v.w5 v.w6 + k + w
  let t2 := bigSigma0 v.w0 + shaMaj v.w0 v.w1 v.w2
  ⟨t1 + t2, v.w0, v.w1, v.w2, v.w3 + t1, v.w4, v.w5, v.w6⟩

/-- R169: Compress(H, M) of eight words and a 64-byte block. -/
def compress (h : HashWords) (block : Bytes) : HashWords :=
  let v := (List.zip shaK (shaSchedule block)).foldl (fun v kw => shaRound v kw.1 kw.2) h
  ⟨h.w0 + v.w0, h.w1 + v.w1, h.w2 + v.w2, h.w3 + v.w3, h.w4 + v.w4, h.w5 + v.w5, h.w6 + v.w6, h.w7 + v.w7⟩

/-- R161, R162, R171: Compress over the complete 64-byte blocks of a byte string, in order. -/
def compressAll (h : HashWords) (t : Bytes) : HashWords :=
  (splitBlocks 64 (t.length / 64) t).foldl compress h

/-- R162, R171: the eight words as 32 bytes, each most significant byte first. -/
def hashBytes (h : HashWords) : Bytes :=
  toBE32 h.w0 ++ toBE32 h.w1 ++ toBE32 h.w2 ++ toBE32 h.w3
    ++ toBE32 h.w4 ++ toBE32 h.w5 ++ toBE32 h.w6 ++ toBE32 h.w7

/-- R170, R171: the padding of a message of L bytes: 0x80, then z = (55 - L mod 64) mod 64 zero bytes, then the bit
length modulo 2^64 as 8 bytes. -/
def pad256 (len : Nat) : Bytes :=
  0x80 :: List.replicate ((64 + 55 - len % 64) % 64) 0 ++ toBE64 (BitVec.ofNat 64 (8 * len))

/-- R171: SHA256(m). -/
def sha256 (m : Bytes) : Bytes := hashBytes (compressAll shaH0 (m ++ pad256 m.length))

end Sys2Proof.Machine
end

