-- ==== Sys2Proof/Machine/Digest.lean ====
section
/-! DEFINITION. Digest mode: DIGEST_INIT, DIGEST_UPDATE, DIGEST_FINAL (spec 43_digest.md R160 to R162). -/

namespace Sys2Proof.Machine

/-- R160: a fresh hash context; the cipher context and DIGEST are zeroized, the key material is kept. -/
def bindDigest (s : State) : State :=
  { zeroizeCipher s with cdir := false, digest := zeros 32, hs := shaH0, hlen := 0, hbuf := [], fsm := .dInit }

/-- R160: DIGEST_INIT. -/
def execDigestInit (s : State) : Host.Outcome State Fault Refusal :=
  checked true s.fsm.idle s fun s => succeed [] (bindDigest s)

/-- R161: one chunk folded into the hash context: the complete 64-byte blocks are compressed, the rest stays in
HBUF, HLEN counts modulo 2^61. -/
def absorb (d : Bytes) (s : State) : State :=
  let t := s.hbuf ++ d
  { s with
    hs := compressAll s.hs t
    hbuf := t.drop (64 * (t.length / 64))
    hlen := s.hlen + BitVec.ofNat 61 d.length
    fsm := .dAccum }

/-- R161: DIGEST_UPDATE. -/
def execDigestUpdate (len : BitVec 11) (s : State) : Host.Outcome State Fault Refusal :=
  checked (lenLegal len) s.fsm.inDigest s fun s => succeed [] (absorb (s.operand len) s)

/-- R162: the digest of the bytes absorbed so far. -/
def State.finalDigest (s : State) : Bytes := hashBytes (compressAll s.hs (s.hbuf ++ pad256 s.hlen.toNat))

/-- R162: DIGEST_FINAL's changes: DIGEST written, the hash context zeroized. -/
def closeDigest (s : State) : State := { zeroizeHash s with digest := fit 32 s.finalDigest, fsm := .dFinal }

/-- R162: DIGEST_FINAL. -/
def execDigestFinal (s : State) : Host.Outcome State Fault Refusal :=
  checked true s.fsm.inDigest s fun s => succeed s.finalDigest (closeDigest s)

end Sys2Proof.Machine
end

