-- ==== Sys2Proof/Machine/Hex.lean ====
section
/-! DEFINITION. The hexadecimal formatter (spec 44_hex.md R185, R186). -/

namespace Sys2Proof.Machine

/-- R185: HexChar(v), the ASCII code of the lowercase hexadecimal digit of a 4-bit value. -/
def hexChar (v : BitVec 4) : Byte :=
  if v.toNat < 10 then 0x30 + v.setWidth 8 else 0x61 + (v.setWidth 8 - 10)

/-- R186: the two characters of a byte, high nibble first. -/
def hexPair (b : Byte) : Bytes := [hexChar (b.extractLsb' 4 4), hexChar (b.extractLsb' 0 4)]

/-- R186: the characters of a byte string, left to right. -/
def hexString (d : Bytes) : Bytes := d.flatMap hexPair

/-- R186: HEX. -/
def execHex (s : State) : Host.Outcome State Fault Refusal :=
  checked true s.fsm.digestReady s fun s => succeed (hexString s.digest.toList) s

end Sys2Proof.Machine
end

