-- ==== Sys2Proof/Machine/KeyDerivation.lean ====
section
/-! DEFINITION. Key derivation: the KDF command and its two constructions (spec 41_kdf.md R110 to R115). -/

namespace Sys2Proof.Machine

/-- R112: BytesToKey(P), the digest chain with count 1: 48 bytes. -/
def bytesToKey (salt p : Bytes) : Bytes :=
  let d1 := sha256 (p ++ salt)
  let d2 := sha256 (d1 ++ p ++ salt)
  d1 ++ d2.take 16

/-- R114: the 64-byte key block of HMAC: a key over 64 bytes is hashed first. -/
def hmacKey (k : Bytes) : Bytes :=
  if 64 < k.length then sha256 k ++ List.replicate 32 0x00
  else k ++ List.replicate (64 - k.length) 0x00

/-- R114: HMAC_SHA256(K, m). -/
def hmacSha256 (k m : Bytes) : Bytes :=
  let k0 := hmacKey k
  let inner := sha256 (xorBytes k0 (List.replicate 64 0x36) ++ m)
  sha256 (xorBytes k0 (List.replicate 64 0x5c) ++ inner)

/-- R113: PBKDF2(P) with HMAC-SHA-256, one iteration: 48 bytes. -/
def pbkdf2 (salt p : Bytes) : Bytes :=
  let t1 := hmacSha256 p (salt ++ toBE32 1)
  let t2 := hmacSha256 p (salt ++ toBE32 2)
  t1 ++ t2.take 16

/-- R111: KDF(P), 48 bytes, by the construction the instance selects. -/
def kdfOutput (c : Config) (p : Bytes) : Bytes :=
  match c.kdfVariant with
  | .bytesToKeySha256 => bytesToKey c.salt.toList p
  | .pbkdf2HmacSha256 => pbkdf2 c.salt.toList p

/-- R115: KEY is bytes 0 to 31 of the derivation's output. -/
def derivedKey (c : Config) (p : Bytes) : Key := fit 32 ((kdfOutput c p).take 32)

/-- R115: IV is bytes 32 to 47 of the derivation's output. -/
def derivedIv (c : Config) (p : Bytes) : Block := fit 16 (((kdfOutput c p).drop 32).take 16)

/-- R110, R119: KDF's changes: KEY, IV and KEYV, and the passphrase's bytes of LDATA zeroized. -/
def derive (len : BitVec 11) (s : State) : State :=
  { s with
    key := derivedKey s.cfg (s.operand len)
    iv := derivedIv s.cfg (s.operand len)
    keyv := true
    ldata := fit 1024 (List.replicate len.toNat 0 ++ s.ldata.toList.drop len.toNat) }

/-- R110: KDF. -/
def execKdf (len : BitVec 11) (s : State) : Host.Outcome State Fault Refusal :=
  checked (lenLegal len) s.fsm.idle s fun s => succeed [] (derive len s)

end Sys2Proof.Machine
end

