-- ==== Sys2Proof/Machine/Dispatch.lean ====
section
/-! DEFINITION. The meaning of every command (spec 40_command_model.md R100): Exec and the completion that applies
it, for a command word that decodes to i. -/

namespace Sys2Proof.Machine

def exec (i : Instr) (s : State) : Host.Outcome State Fault Refusal :=
  match i with
  | .clear => Sys2Proof.Machine.execClear s
  | .kdf len => Sys2Proof.Machine.execKdf len s
  | .cipherInit dir => Sys2Proof.Machine.execCipherInit dir s
  | .cipherUpdate len => Sys2Proof.Machine.execCipherUpdate len s
  | .cipherFinal => Sys2Proof.Machine.execCipherFinal s
  | .digestInit => Sys2Proof.Machine.execDigestInit s
  | .digestUpdate len => Sys2Proof.Machine.execDigestUpdate len s
  | .digestFinal => Sys2Proof.Machine.execDigestFinal s
  | .hex => Sys2Proof.Machine.execHex s

end Sys2Proof.Machine
end

