-- ==== Sys2Proof/Machine/Engine.lean ====
section
/-! DEFINITION. The engine's own step, and one turn of the machine (spec 10_state.md R20, 40_command_model.md R92, R93,
R100, 20_memory.md R64, 70_reset_and_hazards.md R235). -/

namespace Sys2Proof.Machine

/-- R92, R93, R100: while BUSY = 1 the engine's one enabled step is the completion of the command in LCMD; an
illegal word completes with its code. While BUSY = 0 the engine has no step. -/
def engineStep (s : State) : Host.Outcome State Fault Refusal :=
  if s.busy then
    match decode s.lcmd with
    | .badcmd => preconditionError .badcmd s
    | .badlen => preconditionError .badlen s
    | .command i => exec i s
  else .next s

/-- R235: the reset input rises: the engine's elements take their reset values and a command in flight is
abandoned (R236). -/
def assertReset (s : State) : State := applyReset true s

/-- R235: the reset input falls: the engine starts from its reset values. Without an asserted reset nothing
happens. -/
def releaseReset (s : State) : State := if s.inReset then applyReset false s else s

/-- One turn. -/
def takeTurn (t : Turn) (s : State) : Host.Outcome State Fault Refusal :=
  match t with
  | .host a => .next (busAccess a s)
  | .engine => engineStep s
  | .resetAssert => .next (assertReset s)
  | .resetRelease => .next (releaseReset s)

/-- R92, R243: the step of a state: its next turn, or, when the host and the reset input have none left, the
engine's (every accepted command completes, weak fairness). -/
def stepTurns (s : State) : Host.Outcome State Fault Refusal :=
  match s.turns with
  | [] => engineStep s
  | t :: ts => takeTurn t { s with turns := ts }

/-- A command word placed where the engine takes its next one: accepted as R90 says, out of reset, with the
engine's completion the very next turn. -/
def placeCommand (w : Word) (s : State) : State :=
  { accept w s with inReset := false, turns := .engine :: s.turns }

end Sys2Proof.Machine
end

