-- ==== Sys2Proof/Machine/Step.lean ====
section
/-! DEFINITION. The step of the machine, and where the host's checks place a command (log entry 6). -/

namespace Sys2Proof.Machine

/-- One step: the next turn of the host, of the reset input, or of the engine. -/
def step (s : State) : Host.Outcome State Fault Refusal := stepTurns s

/-- The state in which the very next step runs the command whose low `nbits` bits are those of `w`. -/
def State.withFetchWord (s : State) (nbits w : Nat) : State :=
  placeCommand (BitVec.ofNat 32 (w % 2 ^ nbits)) s

end Sys2Proof.Machine
end

