-- ==== Sys2Proof/Machine/Session.lean ====
section
/-! DEFINITION. The host's side (spec 30_encoding.md R82, 45_host_session.md R189 to R206): the directives a host's
program is made of, each a sequence of bus accesses, and the three sessions of the Guarded Stream Session. None
of this is engine logic (00_scope.md R5): it is the protocol a host follows, run against the engine. -/

namespace Sys2Proof.Machine

/-- Go on with the value of an outcome; a fault or a refusal ends the run. -/
def andThen {α β : Type} (o : Host.Outcome α Fault Refusal) (k : α → Host.Outcome β Fault Refusal) :
    Host.Outcome β Fault Refusal :=
  match o with
  | .next a => k a
  | .fault r => .fault r
  | .refused r => .refused r

/-! ### Directives (R82) -/

/-- A host write at a window offset. -/
def hostWrite (off n : Nat) (v : Word) (s : State) : State := busAccess (.write (s.cfg.base + off) n v) s

/-- A host read at a window offset. -/
def hostRead (off n : Nat) (s : State) : State := busAccess (.read (s.cfg.base + off) n) s

/-- The value the host's last access returned. -/
def State.lastData (s : State) : Word := (s.resp.getD ⟨0, false⟩).data

/-- R82: WIN off, bytes: one 8-bit write a byte. -/
def hostWin (off : Nat) : Bytes → State → State
  | [], s => s
  | b :: bs, s => hostWin (off + 1) bs (hostWrite (dataInOffset + off) 1 (b.setWidth 32) s)

/-- R82: WAIT: poll STATUS until bit 0 (BUSY) reads 0. The number is how many polls read BUSY = 1 before the engine
completes (R65, R92); a host that waits for an idle engine stops at its first poll. -/
def hostWait : Nat → State → Host.Outcome State Fault Refusal
  | 0, s => andThen (engineStep s) fun s => .next (hostRead 0x004 4 s)
  | k + 1, s =>
    let s := hostRead 0x004 4 s
    if s.lastData.getLsbD 0 then hostWait k s else .next s

/-- R82: RERR: ERRCODE's bits [7:0]. -/
def hostRerr (s : State) : State × Byte :=
  let s := hostRead 0x008 4 s
  (s, s.lastData.extractLsb' 0 8)

/-- The bytes of DATA_OUT from index k on, by n 8-bit reads. -/
def hostReadOut : Nat → Nat → State → State × Bytes
  | 0, _, s => (s, [])
  | n + 1, k, s =>
    let s := hostRead (dataOutOffset + k) 1 s
    let b := s.lastData.extractLsb' 0 8
    let r := hostReadOut n (k + 1) s
    (r.1, b :: r.2)

/-- R82: ROUT: OUT_LEN, and then that many bytes of DATA_OUT. -/
def hostRout (s : State) : State × Bytes :=
  let s := hostRead 0x00C 4 s
  hostReadOut (s.lastData.extractLsb' 0 11).toNat 0 s

/-! ### A command and its result (R189) -/

/-- What a session, or one command of it, returns (R189): OK with a byte string, or FAIL(kind, code). -/
inductive HostResult where
  | ok (result : Bytes)
  | fail (kind code : Nat)
deriving DecidableEq, Repr

/-- The host's side of a session: the engine, how many polls read BUSY = 1 for each command still to come (none
left: no poll does), the bytes in the sink, and whether each sink write still to come succeeds (none left: it does). -/
structure Session where
  engine : State
  polls : List Nat
  sink : Bytes
  sinkOk : List Bool
deriving DecidableEq, Repr

/-- R211: the kind of an error code. -/
def codeKind (code : Byte) : Nat := if code = 0 then 0 else if code.toNat < 0x10 then 1 else 2

/-- R82, R203: WAIT for the command in flight. -/
def awaitCompletion (h : Session) : Host.Outcome Session Fault Refusal :=
  andThen (hostWait (h.polls.headD 0) h.engine) fun s => .next { h with engine := s, polls := h.polls.tail }

/-- R81, R189: issue a command word by a 32-bit write to CMD and WAIT. -/
def issueAndWait (w : Word) (h : Session) : Host.Outcome Session Fault Refusal :=
  awaitCompletion { h with engine := hostWrite 0x000 4 w h.engine }

/-- R202: end a failed session with CLEAR, returning `r`. -/
def giveUp (r : HostResult) (h : Session) : Host.Outcome (Session × HostResult) Fault Refusal :=
  andThen (issueAndWait (encode .clear) h) fun h => .next (h, r)

/-- R189, R200: cmd(word), for any 32-bit word: issue it, wait, read code and output; on an error, CLEAR and
FAIL(kind, code), so a word that decoding rejects ends in FAIL(1, 0x02) or FAIL(1, 0x03). -/
def hostCmdWord (w : Word) (h : Session) : Host.Outcome (Session × HostResult) Fault Refusal :=
  andThen (issueAndWait w h) fun h =>
    let e := hostRerr h.engine
    let o := hostRout e.1
    let h := { h with engine := o.1 }
    if e.2 = 0 then .next (h, .ok o.2) else giveUp (.fail (codeKind e.2) e.2.toNat) h

/-- R189: cmd(word) for the word of a command, as the sessions use it. -/
def hostCmd (i : Instr) (h : Session) : Host.Outcome (Session × HostResult) Fault Refusal :=
  hostCmdWord (encode i) h

/-- R199: one access of a session's host. A bus error ends the session with FAIL(1, 0x02) after a CLEAR, which the host
issues only once it has read BUSY = 0 for a command in flight (R203), so that it is not dropped; the accesses of
`hostCmdWord` and `hostPut` are all legal and never get a bus error. -/
def sessionAccess (a : Access) (h : Session)
    (k : Session → Host.Outcome (Session × HostResult) Fault Refusal) :
    Host.Outcome (Session × HostResult) Fault Refusal :=
  let h := { h with engine := busAccess a h.engine }
  if (h.engine.resp.getD ⟨0, false⟩).busError then
    andThen (if h.engine.busy then awaitCompletion h else .next h) (giveUp (.fail 1 0x02))
  else k h

/-- R189: put(bytes): stage at most 1024 bytes. -/
def hostPut (bytes : Bytes) (h : Session) : Session := { h with engine := hostWin 0 bytes h.engine }

/-- Go on with a command's output; FAIL ends the session. -/
def onOk (o : Host.Outcome (Session × HostResult) Fault Refusal)
    (k : Session → Bytes → Host.Outcome (Session × HostResult) Fault Refusal) :
    Host.Outcome (Session × HostResult) Fault Refusal :=
  andThen o fun r =>
    match r.2 with
    | .ok out => k r.1 out
    | .fail kind code => .next (r.1, .fail kind code)

/-- R195, R197: hand an output to the sink; a failing write ends the session with FAIL(3, 0) after a CLEAR. What was
written before stays (R198). DESIGN CHOICE (log entry 16): of the failing write itself the sink takes no byte;
the spec does not say what it leaves. -/
def sinkWrite (out : Bytes) (h : Session) (k : Session → Host.Outcome (Session × HostResult) Fault Refusal) :
    Host.Outcome (Session × HostResult) Fault Refusal :=
  if h.sinkOk.headD true then k { h with sink := h.sink ++ out, sinkOk := h.sinkOk.tail }
  else giveUp (.fail 3 0) { h with sinkOk := h.sinkOk.tail }

/-! ### The sessions (R190 to R193) -/

/-- R196: what one read of the source gives: at most 1024 bytes (none is "no progress"), or a failure. The list of
a session's reads ends where the source reports end-of-stream. -/
inductive SourceRead where
  | chunk (bytes : Bytes)
  | failure
deriving DecidableEq, Repr

/-- R190: what the host checks of its streams before it issues any command. -/
structure StreamCheck where
  sourceHealthy : Bool
  sinkHealthy : Bool
  distinct : Bool
deriving DecidableEq, Repr

/-- R191, R192, R196: the read loop of ENCRYPT and DECRYPT, and the final command. -/
def cipherLoop : List SourceRead → Session → Host.Outcome (Session × HostResult) Fault Refusal
  | [], h => onOk (hostCmd .cipherFinal h) fun h out => sinkWrite out h fun h => .next (h, .ok [])
  | .failure :: _, h => giveUp (.fail 3 0) h
  | .chunk c :: rest, h =>
    if c = [] then cipherLoop rest h
    else
      onOk (hostCmd (.cipherUpdate (BitVec.ofNat 11 c.length)) (hostPut c h)) fun h out =>
        if out = [] then cipherLoop rest h else sinkWrite out h fun h => cipherLoop rest h

/-- R191 (dir = true: ENCRYPT) and R192 (dir = false: DECRYPT). -/
def cipherSession (dir : Bool) (chk : StreamCheck) (pass : Bytes) (src : List SourceRead) (h : Session) :
    Host.Outcome (Session × HostResult) Fault Refusal :=
  if chk.sourceHealthy && chk.sinkHealthy && chk.distinct then
    onOk (hostCmd .clear h) fun h _ =>
      if chunkMax < pass.length then giveUp (.fail 1 0x03) h
      else
        onOk (hostCmd (.kdf (BitVec.ofNat 11 pass.length)) (hostPut pass h)) fun h _ =>
          onOk (hostCmd (.cipherInit dir) (hostPut (List.replicate pass.length 0) h)) fun h _ =>
            cipherLoop src h
  else .next (h, .fail 1 0x01)

/-- R191. -/
def encryptSession := cipherSession true

/-- R192. -/
def decryptSession := cipherSession false

/-- R193, R196: the read loop of CHECKSUM, the final command and HEX. -/
def checksumLoop : List SourceRead → Session → Host.Outcome (Session × HostResult) Fault Refusal
  | [], h => onOk (hostCmd .digestFinal h) fun h _ => hostCmd .hex h
  | .failure :: _, h => giveUp (.fail 3 0) h
  | .chunk c :: rest, h =>
    if c = [] then checksumLoop rest h
    else
      onOk (hostCmd (.digestUpdate (BitVec.ofNat 11 c.length)) (hostPut c h)) fun h _ => checksumLoop rest h

/-- R193: CHECKSUM. No passphrase and no destination take part (R204). -/
def checksumSession (sourceHealthy : Bool) (src : List SourceRead) (h : Session) :
    Host.Outcome (Session × HostResult) Fault Refusal :=
  if sourceHealthy then
    onOk (hostCmd .clear h) fun h _ => onOk (hostCmd .digestInit h) fun h _ => checksumLoop src h
  else .next (h, .fail 1 0x01)

end Sys2Proof.Machine
end

