-- ==== Sys2Proof/Machine/Asm.lean ====
section
/-! DEFINITION. The assembler's language (spec 30_encoding.md R81 to R83): one line a command, a host directive or a
pseudo-instruction; its text, its expansion, and what a host that runs the line does. -/

namespace Sys2Proof.Machine

/-! ### Lines and their expansion (R81 to R83) -/

/-- A line of a program. -/
inductive AsmLine where
  /-- R81: a command, issued by MemWrite(0x000, 4, word). -/
  | command (i : Instr)
  /-- R82: WIN off, bytes. -/
  | win (off : Nat) (bytes : Bytes)
  /-- R82: WAIT. -/
  | wait
  /-- R82: RERR. -/
  | rerr
  /-- R82: ROUT. -/
  | rout
  /-- R83: KDF "p". -/
  | kdfOf (p : Bytes)
  /-- R83: CUPD bytes. -/
  | cupdOf (bytes : Bytes)
  /-- R83: DUPD bytes. -/
  | dupdOf (bytes : Bytes)
  /-- R83: CMDW cmd. -/
  | cmdw (i : Instr)
deriving DecidableEq, Repr

/-- R83: the expansion of a pseudo-instruction; any other line stands for itself. R83 admits at most 1024 bytes of data.
DESIGN CHOICE (log entry 14): a longer operand, which no text spells (`dataLine`), expands in the same way with LEN
its length modulo 2048. -/
def AsmLine.expand : AsmLine → List AsmLine
  | .kdfOf p => [.win 0 p, .command (.kdf (BitVec.ofNat 11 p.length)), .wait, .rerr]
  | .cupdOf d => [.win 0 d, .command (.cipherUpdate (BitVec.ofNat 11 d.length)), .wait, .rerr, .rout]
  | .dupdOf d => [.win 0 d, .command (.digestUpdate (BitVec.ofNat 11 d.length)), .wait, .rerr]
  | .cmdw i => [.command i, .wait, .rerr, .rout]
  | .command i => [.command i]
  | .win off d => [.win off d]
  | .wait => [.wait]
  | .rerr => [.rerr]
  | .rout => [.rout]

/-- What a host running a program holds: the engine, and what RERR and ROUT read last. -/
structure AsmRun where
  engine : State
  code : Byte
  out : Bytes
deriving DecidableEq, Repr

/-- What the host does for one line that is no pseudo-instruction. The engine completes at the WAIT after `polls`
polls; a pseudo-instruction has its meaning by `AsmLine.expand`. -/
def runPlain (polls : Nat) (l : AsmLine) (r : AsmRun) : Host.Outcome AsmRun Fault Refusal :=
  match l with
  | .command i => .next { r with engine := hostWrite 0x000 4 (encode i) r.engine }
  | .win off d => .next { r with engine := hostWin off d r.engine }
  | .wait => andThen (hostWait polls r.engine) fun s => .next { r with engine := s }
  | .rerr =>
    let e := hostRerr r.engine
    .next { r with engine := e.1, code := e.2 }
  | .rout =>
    let o := hostRout r.engine
    .next { r with engine := o.1, out := o.2 }
  | .kdfOf _ => .next r
  | .cupdOf _ => .next r
  | .dupdOf _ => .next r
  | .cmdw _ => .next r

/-- Run lines that are no pseudo-instructions, one after another. -/
def runPlains (polls : Nat) : List AsmLine → AsmRun → Host.Outcome AsmRun Fault Refusal
  | [], r => .next r
  | l :: ls, r => andThen (runPlain polls l r) (runPlains polls ls)

/-- R83: run a line, a pseudo-instruction by its expansion. -/
def runLine (polls : Nat) (l : AsmLine) (r : AsmRun) : Host.Outcome AsmRun Fault Refusal :=
  runPlains polls l.expand r

/-- Run a program, line by line. -/
def runProgram (polls : Nat) : List AsmLine → AsmRun → Host.Outcome AsmRun Fault Refusal
  | [], r => .next r
  | l :: ls, r => andThen (runLine polls l r) (runProgram polls ls)

/-! ### The text of a line (R81, R82) -/

/-- A token: a word between blanks and commas, or a quoted ASCII string (R82) without its quotes. -/
inductive Token where
  | word (cs : List Char)
  | quoted (cs : List Char)
deriving DecidableEq, Repr

/-- The word read so far, as a token if it is not empty. -/
def wordSoFar (cur : List Char) (rest : List Token) : List Token :=
  if cur = [] then rest else .word cur.reverse :: rest

/-- The tokens of a line; `;` outside quotes starts a comment (R81). A quote that is never closed gives a word that no
line admits. -/
def tokensFrom (inQuotes : Bool) (cur : List Char) : List Char → List Token
  | [] => if inQuotes then [.word ['"']] else wordSoFar cur []
  | c :: cs =>
    if inQuotes then
      if c = '"' then .quoted cur.reverse :: tokensFrom false [] cs else tokensFrom true (c :: cur) cs
    else if c = ';' then wordSoFar cur []
    else if c = '"' then wordSoFar cur (tokensFrom true [] cs)
    else if c = ' ' ∨ c = ',' ∨ c = '\t' then wordSoFar cur (tokensFrom false [] cs)
    else tokensFrom false (c :: cur) cs

/-- The value of a hexadecimal digit. -/
def hexDigit (c : Char) : Option Nat :=
  if '0' ≤ c ∧ c ≤ '9' then some (c.toNat - 48)
  else if 'a' ≤ c ∧ c ≤ 'f' then some (c.toNat - 87)
  else if 'A' ≤ c ∧ c ≤ 'F' then some (c.toNat - 55)
  else none

/-- The number that digits spell in a base, continuing from `acc`; none for a digit out of the base. -/
def digitsFrom (base acc : Nat) : List Char → Option Nat
  | [] => some acc
  | c :: cs =>
    match hexDigit c with
    | none => none
    | some d => if d < base then digitsFrom base (base * acc + d) cs else none

/-- R81: a number, decimal or 0x-hexadecimal. -/
def number : List Char → Option Nat
  | [] => none
  | '0' :: 'x' :: cs => if cs = [] then none else digitsFrom 16 0 cs
  | cs => digitsFrom 10 0 cs

/-- R81: `#<len>`, 0 to 1024. -/
def lenOperand : List Char → Option (BitVec 11)
  | '#' :: cs =>
    match number cs with
    | some n => if n ≤ chunkMax then some (BitVec.ofNat 11 n) else none
    | none => none
  | _ => none

/-- R82: bytes written as hexadecimal digits, two a byte. -/
def hexBytes : List Char → Option Bytes
  | [] => some []
  | h :: l :: cs =>
    match hexDigit h, hexDigit l, hexBytes cs with
    | some a, some b, some bs => some (BitVec.ofNat 8 (16 * a + b) :: bs)
    | _, _, _ => none
  | _ => none

/-- R82: a byte-string operand: hexadecimal bytes, in words with blanks between them, or a quoted ASCII string. DESIGN
CHOICE (log entry 14): several pieces of either kind are their concatenation; R82 gives one kind at a time. -/
def byteOperand : List Token → Option Bytes
  | [] => some []
  | .quoted cs :: ts =>
    match byteOperand ts with
    | some bs =>
      if cs.all (fun c => c.toNat < 128) then some (cs.map (fun c => BitVec.ofNat 8 c.toNat) ++ bs) else none
    | none => none
  | .word cs :: ts =>
    match hexBytes cs, byteOperand ts with
    | some b, some bs => some (b ++ bs)
    | _, _ => none

/-- R81: the assembler's spelling of a command without operands. -/
def plainCommand (m : List Char) : Option Instr :=
  if m = ['C', 'L', 'E', 'A', 'R'] then some .clear
  else if m = ['C', 'F', 'I', 'N'] then some .cipherFinal
  else if m = ['D', 'I', 'N', 'I', 'T'] then some .digestInit
  else if m = ['D', 'F', 'I', 'N'] then some .digestFinal
  else if m = ['H', 'E', 'X'] then some .hex
  else none

/-- R81: CINIT ENC | DEC. -/
def initCommand (d : List Char) : Option Instr :=
  if d = ['E', 'N', 'C'] then some (.cipherInit true)
  else if d = ['D', 'E', 'C'] then some (.cipherInit false)
  else none

/-- R81: the assembler's spelling of a command with a `#<len>` operand. -/
def lenCommand (m : List Char) (len : BitVec 11) : Option Instr :=
  if m = ['K', 'D', 'F'] then some (.kdf len)
  else if m = ['C', 'U', 'P', 'D'] then some (.cipherUpdate len)
  else if m = ['D', 'U', 'P', 'D'] then some (.digestUpdate len)
  else none

/-- R83: a pseudo-instruction with a byte-string operand, at most 1024 bytes. DESIGN CHOICE (log entry 14): KDF takes
hexadecimal bytes too, where R83 gives only a quoted string. -/
def dataLine (m : List Char) (d : Bytes) : Option AsmLine :=
  if chunkMax < d.length then none
  else if m = ['K', 'D', 'F'] then some (.kdfOf d)
  else if m = ['C', 'U', 'P', 'D'] then some (.cupdOf d)
  else if m = ['D', 'U', 'P', 'D'] then some (.dupdOf d)
  else none

/-- R81: a command, from its tokens. -/
def commandOf : List Token → Option Instr
  | [.word m] => plainCommand m
  | [.word m, .word x] =>
    if m = ['C', 'I', 'N', 'I', 'T'] then initCommand x
    else
      match lenOperand x with
      | some len => lenCommand m len
      | none => none
  | _ => none

/-- R82: WIN off, bytes. DESIGN CHOICE (log entry 14): the offset is a number as R81 writes one, and no bytes at all are
the empty byte string. -/
def winLine : List Token → Option AsmLine
  | .word o :: ts =>
    match number o, byteOperand ts with
    | some off, some d => some (.win off d)
    | _, _ => none
  | _ => none

/-- R81 to R83: a line from its tokens: a command first, then a directive, then a pseudo-instruction. DESIGN CHOICE (log
entry 14): what follows WAIT is ignored, and what follows RERR and ROUT, which only names the result; CMDW
takes any command, where R83 says "any command without data"; KDF takes hexadecimal bytes too (`dataLine`). -/
def lineOf (ts : List Token) : Option AsmLine :=
  match commandOf ts with
  | some i => some (.command i)
  | none =>
    match ts with
    | .word m :: rest =>
      if m = ['W', 'A', 'I', 'T'] then some .wait
      else if m = ['R', 'E', 'R', 'R'] then some .rerr
      else if m = ['R', 'O', 'U', 'T'] then some .rout
      else if m = ['W', 'I', 'N'] then winLine rest
      else if m = ['C', 'M', 'D', 'W'] then (commandOf rest).map .cmdw
      else if rest = [] then none
      else
        match byteOperand rest with
        | some d => dataLine m d
        | none => none
    | _ => none

/-- R81: the line a text spells; none for a text that is no line of the language. DESIGN CHOICE (log entry 14): a blank
or comment-only text spells no line either; a program, a list of lines, leaves it out. -/
def parseLine (text : List Char) : Option AsmLine := lineOf (tokensFrom false [] text)

/-- R81: the words a text's command assembles to. -/
def assemble (text : List Char) : Option Word :=
  match parseLine text with
  | some (.command i) => some (encode i)
  | _ => none

end Sys2Proof.Machine
end

