-- ==== Sys2Proof/Safety.lean ====
section
/-! DEFINITION. What the claims about the machine speak of: the table of legal states (spec 40_command_model.md R94),
the invariants every rule keeps (10_state.md R43), what a completion leaves (40_command_model.md R92, R97), and the
law a block cipher obeys (42_cipher.md R146). -/

namespace Sys2Proof.Machine

/-! ### The state table (R94) -/

/-- R94: the states a command is legal in. -/
def legalIn : Instr → Fsm → Bool
  | .clear, _ => true
  | .kdf _, f => f ∈ [Fsm.uninit, .cFinal, .dFinal]
  | .cipherInit _, f => f ∈ [Fsm.uninit, .cFinal, .dFinal]
  | .cipherUpdate _, f => f ∈ [Fsm.cInit, .cStream]
  | .cipherFinal, f => f ∈ [Fsm.cInit, .cStream]
  | .digestInit, f => f ∈ [Fsm.uninit, .cFinal, .dFinal]
  | .digestUpdate _, f => f ∈ [Fsm.dInit, .dAccum]
  | .digestFinal, f => f ∈ [Fsm.dInit, .dAccum]
  | .hex, f => f ∈ [Fsm.dFinal]

/-- R94: STATE after success. -/
def afterSuccess : Instr → Fsm → Fsm
  | .clear, _ => .uninit
  | .kdf _, f => f
  | .cipherInit _, _ => .cInit
  | .cipherUpdate _, _ => .cStream
  | .cipherFinal, _ => .cFinal
  | .digestInit, _ => .dInit
  | .digestUpdate _, _ => .dAccum
  | .digestFinal, _ => .dFinal
  | .hex, f => f

/-- R101: the most bytes a command emits. -/
def outputBound : Instr → Nat
  | .clear => 0
  | .kdf _ => 0
  | .cipherInit _ => 0
  | .cipherUpdate _ => 1024
  | .cipherFinal => 16
  | .digestInit => 0
  | .digestUpdate _ => 0
  | .digestFinal => 32
  | .hex => 64

/-! ### What a completion leaves -/

/-- R92, R97: the completion of a command that succeeded with output `out`, seen through reads of one byte: DATA_OUT
holds the output, OUT_LEN its length, ERRCODE and BUSY are 0, and every other byte of the window reads as
before. -/
def Emitted (s t : State) (out : Bytes) : Prop :=
  (∀ j, j < out.length → t.dataOutByte j = out[j]?) ∧
  (∀ a, a < dataOutOffset ∨ dataOutOffset + out.length ≤ a → t.mem.read a = s.mem.read a) ∧
  t.outLen = BitVec.ofNat 11 out.length ∧ t.errcode = 0 ∧ t.busy = false

/-- R29, R210: the values ERRCODE takes. -/
def legalErrcodes : List Word := [0x000, 0x101, 0x102, 0x103, 0x211, 0x213, 0x214]

/-! ### The invariants (R43) -/

/-- The invariants every rule keeps: those of R43, and what R44, R45, R90, R92 and R101 add to them. -/
structure State.Inv (s : State) : Prop where
  /-- The window's storage is in canonical form (R52). -/
  memory : s.mem.wf = true
  /-- R43: len(CBUF) <= 15. -/
  cbufShort : s.cbuf.length ≤ 15
  /-- R43: len(HBUF) <= 63. -/
  hbufShort : s.hbuf.length ≤ 63
  /-- R43: HELD_V = 1 implies CDIR = 0, STATE = C_STREAM and CBUF = []. -/
  heldDecrypts : s.heldv = true → s.cdir = false ∧ s.fsm = .cStream ∧ s.cbuf = []
  /-- R37, R44: HELD is zero unless HELD_V = 1. -/
  heldEmpty : s.heldv = false → s.held = zeros 16
  /-- R43: KEYV = 1 implies STATE is not C_INIT, C_STREAM or FAULT. -/
  keyConsumed : s.keyv = true → s.fsm ≠ .cInit ∧ s.fsm ≠ .cStream ∧ s.fsm ≠ .fault
  /-- R32, R44: without key material KEY and IV are zero. -/
  keyZero : s.keyv = false → s.key = zeros 32 ∧ s.iv = zeros 16
  /-- R43: BUSY = 0 implies OUT_LEN <= 1024. -/
  outputFits : s.busy = false → s.outLen.toNat ≤ 1024
  /-- R31, R101: BUSY = 0 implies that DATA_OUT holds the whole output. -/
  outputHeld : s.busy = false → ∀ j, j < s.outLen.toNat → (s.dataOutByte j).isSome = true
  /-- R90, R240: BUSY = 1 implies ERRCODE = 0 and OUT_LEN = 0. -/
  busyQuiet : s.busy = true → s.errcode = 0 ∧ s.outLen = 0
  /-- R29: ERRCODE holds a legal value. -/
  errcodeLegal : s.errcode ∈ legalErrcodes
  /-- R35, R43, R44: outside C_INIT and C_STREAM the cipher context is zero. -/
  cipherZero : s.fsm.inCipher = false →
    s.ckey = zeros 32 ∧ s.cv = zeros 16 ∧ s.cbuf = [] ∧ s.held = zeros 16 ∧ s.heldv = false
  /-- R36: the partial-block buffer is empty before the first update. -/
  cipherFresh : s.fsm = .cInit → s.cbuf = []
  /-- R38, R43, R44: outside D_INIT and D_ACCUM the hash context is zero. -/
  hashZero : s.fsm.inDigest = false → s.hs = .zero ∧ s.hlen = 0 ∧ s.hbuf = []
  /-- R160: the hash context before the first update. -/
  hashFresh : s.fsm = .dInit → s.hs = shaH0 ∧ s.hlen = 0 ∧ s.hbuf = []
  /-- R172: HBUF holds the last HLEN mod 64 bytes. -/
  hashLength : s.fsm.inDigest = true → s.hbuf.length = s.hlen.toNat % 64
  /-- R39, R43: DIGEST is zero unless STATE = D_FINAL. -/
  digestZero : s.fsm ≠ .dFinal → s.digest = zeros 32
  /-- R41, R99, R160: CDIR is 0 where no cipher context was bound since CLEAR, DIGEST_INIT or reset. -/
  directionClear : s.fsm = .uninit ∨ s.fsm = .dInit ∨ s.fsm = .dAccum ∨ s.fsm = .dFinal → s.cdir = false
  /-- R235: while reset is asserted no command is in flight. -/
  resetIdle : s.inReset = true → s.busy = false

/-! ### What the host sees (R42) -/

/-- The responses the host gets to a sequence of accesses. -/
def responses : List Access → State → List (Option Response)
  | [], _ => []
  | a :: as, s => (busAccess a s).resp :: responses as (busAccess a s)

/-- The state with every element the host cannot read replaced (R42). -/
def State.withHidden (s h : State) : State :=
  { s with
    key := h.key, iv := h.iv, ckey := h.ckey, cv := h.cv, cbuf := h.cbuf, held := h.held, heldv := h.heldv,
    hs := h.hs, hlen := h.hlen, hbuf := h.hbuf, digest := h.digest, lcmd := h.lcmd, ldata := h.ldata }

/-! ### Block ciphers (R146) -/

/-- R146: D(K, E(K, x)) = x for every K and x. -/
def cipherLawful (c : BlockCipher) : Prop := ∀ (k : Key) (x : Block), blockDecrypt c k (blockEncrypt c k x) = x

/-! ### Runs of commands (R102, R129, R134, R135, R172) -/

/-- The chunk d given to a command as its input: what acceptance latched (R74, R90). -/
def State.given (s : State) (d : Bytes) : State :=
  { s with ldata := fit 1024 (d ++ s.ldata.toList.drop d.length) }

/-- The output a completed command left in DATA_OUT: its first OUT_LEN bytes (R30, R31). -/
def State.output (s : State) : Bytes :=
  (List.range s.outLen.toNat).map fun j => (s.dataOutByte j).getD 0

/-- A run of updates: one command a chunk, each latched and completed; the bytes emitted are collected. -/
def feed (update : BitVec 11 → Instr) : List Bytes → State → Host.Outcome (State × Bytes) Fault Refusal
  | [], s => .next (s, [])
  | d :: ds, s =>
    andThen (exec (update (BitVec.ofNat 11 d.length)) (s.given d)) fun s1 =>
      andThen (feed update ds s1) fun r => .next (r.1, s1.output ++ r.2)

/-- A whole context: its updates and then its final command; the concatenated output (R145, R172). -/
def feedAndFinish (update : BitVec 11 → Instr) (final : Instr) (chunks : List Bytes) (s : State) :
    Host.Outcome (State × Bytes) Fault Refusal :=
  andThen (feed update chunks s) fun r =>
    andThen (exec final r.1) fun t => .next (t, r.2 ++ t.output)

/-- R110, R126: bind a cipher context to the key material of a passphrase: KDF, then CIPHER_INIT. -/
def bindContext (dir : Bool) (pass : Bytes) (s : State) : Host.Outcome State Fault Refusal :=
  andThen (exec (.kdf (BitVec.ofNat 11 pass.length)) (s.given pass)) (exec (.cipherInit dir))

/-- R129, R158: a whole message through a cipher context of its own, under a passphrase. -/
def transform (dir : Bool) (pass : Bytes) (chunks : List Bytes) (s : State) :
    Host.Outcome (State × Bytes) Fault Refusal :=
  andThen (bindContext dir pass s) (feedAndFinish .cipherUpdate .cipherFinal chunks)

/-- R15, R71: chunks that updates accept: at most 1024 bytes each. -/
def chunksFit (chunks : List Bytes) : Prop := ∀ d ∈ chunks, d.length ≤ 1024

/-! ### Host sessions (45_host_session.md) -/

/-- R203: where a session starts: out of reset and with no command in flight. -/
def Session.ready (h : Session) : Prop := h.engine.inReset = false ∧ h.engine.busy = false

/-- R196: the bytes that a list of source reads carries; it carries none past a failure. -/
def sourceBytes : List SourceRead → Bytes
  | [] => []
  | .chunk c :: rest => c ++ sourceBytes rest
  | .failure :: _ => []

/-- R196: every read gives at most 1024 bytes and none fails. -/
def sourceFine (src : List SourceRead) : Prop := ∀ r ∈ src, ∃ c, r = .chunk c ∧ c.length ≤ 1024

end Sys2Proof.Machine
end

