-- ==== Sys2Proof/Certificates/Slice0/Obligations.lean ====
section
/-! DEFINITION. The statements about the model, from the numbered rules of spec/. A statement about every state is a
statement about every instance (BASE, SALT, KDF_VARIANT, BLOCK_CIPHER), since the state carries the
instance's parameters. -/

open Sys2Proof Sys2Proof.Machine

/-! ### The command word -/

/-- R71, R76, R78, R79: decoding is exactly the inverse of encoding on well-formed commands: a word decodes to a
command if and only if it is that command's word and the command's LEN is in range. So each command has one word
and no other word reads as a command. -/
def Obligations.DecodeExactlyInvertsEncode : Prop :=
  ∀ (w : Word) (i : Instr), decode w = .command i ↔ (i.wf = true ∧ encode i = w)

/-- R78, with the fields read off the word's number: BADCMD, else BADLEN, else the command of R76. -/
def Obligations.DecodeVerdictConditions : Prop :=
  ∀ w : Word,
    let op := w.toNat % 16
    let dir := w.toNat / 16 % 2
    let res0 := w.toNat / 32 % 2048
    let len := w.toNat / 65536 % 2048
    let res1 := w.toNat / 134217728
    let bad := op = 0 ∨ 10 ≤ op ∨ res0 ≠ 0 ∨ res1 ≠ 0 ∨ (dir = 1 ∧ op ≠ 3)
    let long := 1024 < len ∨ (len ≠ 0 ∧ op ≠ 2 ∧ op ≠ 4 ∧ op ≠ 7)
    (decode w = .badcmd ↔ bad) ∧
    (decode w = .badlen ↔ ¬ bad ∧ long) ∧
    (¬ bad → ¬ long →
      decode w = .command
        (if op = 1 then .clear
         else if op = 2 then .kdf (BitVec.ofNat 11 len)
         else if op = 3 then .cipherInit (decide (dir = 1))
         else if op = 4 then .cipherUpdate (BitVec.ofNat 11 len)
         else if op = 5 then .cipherFinal
         else if op = 6 then .digestInit
         else if op = 7 then .digestUpdate (BitVec.ofNat 11 len)
         else if op = 8 then .digestFinal
         else .hex))

/-- R79: a word fits at most one row of the table of patterns; a word that fits none is rejected; a word that decodes
to a command fits the row of the command's mnemonic; and a word that fits a row decodes to a command of that
mnemonic as soon as its LEN is at most 1024. -/
def Obligations.PatternsSelectTheCommand : Prop :=
  (∀ (w : Word) (p q : Pattern), p ∈ patterns → q ∈ patterns → p.fits w = true → q.fits w = true → p = q) ∧
  (∀ w : Word, (∀ p ∈ patterns, p.fits w = false) → decode w = .badcmd ∨ decode w = .badlen) ∧
  (∀ (w : Word) (i : Instr), decode w = .command i → ∃ p ∈ patterns, p.name = mnemonic i ∧ p.fits w = true) ∧
  (∀ (w : Word) (p : Pattern), p ∈ patterns → p.fits w = true → w.toNat / 65536 % 2048 ≤ 1024 →
    ∃ i, decode w = .command i ∧ mnemonic i = p.name)

/-- R80: a few of the example words decode to the commands they stand for. -/
def Obligations.ExampleWordsDecode : Prop :=
  decode 0x00000001 = .command .clear ∧
  decode 0x00040002 = .command (.kdf 4) ∧
  decode 0x00000013 = .command (.cipherInit true) ∧
  decode 0x00000003 = .command (.cipherInit false) ∧
  decode 0x04000004 = .command (.cipherUpdate 1024) ∧
  decode 0x00000005 = .command .cipherFinal ∧
  decode 0x00000006 = .command .digestInit ∧
  decode 0x001B0007 = .command (.digestUpdate 27) ∧
  decode 0x00000008 = .command .digestFinal ∧
  decode 0x00000009 = .command .hex ∧
  decode 0x04010004 = .badlen ∧ decode 0x00000016 = .badcmd ∧
  decode 0x00010009 = .badlen ∧ decode 0x00000000 = .badcmd

/-! ### The step -/

/-- R92, R93, R100: when it is the engine's turn and the command in flight decodes to i, the step is the meaning of i,
with the turn taken. (The engine's turn: it stands first in the list of turns, or the list is empty. That list is
the model's choice, log entry 7. An illegal word in flight is IllegalWordCompletesWithItsCode's.) -/
def Obligations.StepRunsTheDecodedCommand : Prop :=
  ∀ (s : State) (i : Instr), s.busy = true → decode s.lcmd = .command i →
    (∀ ts, s.turns = .engine :: ts → step s = exec i { s with turns := ts }) ∧
    (s.turns = [] → step s = exec i s)

/-- R64, R92, R235: one step is one turn: a host access, a change of the reset input, or the engine's, whose step while a
word is in flight StepRunsTheDecodedCommand and IllegalWordCompletesWithItsCode give; an idle engine stays as it is, on its turn and when no turn
is left. (The list of turns is the model's own, log entry 7.) -/
def Obligations.StepTakesTheNextTurn : Prop :=
  ∀ s : State,
    (∀ a ts, s.turns = .host a :: ts → step s = .next (busAccess a { s with turns := ts })) ∧
    (∀ ts, s.turns = .engine :: ts → s.busy = false → step s = .next { s with turns := ts }) ∧
    (∀ ts, s.turns = .resetAssert :: ts → step s = takeTurn .resetAssert { s with turns := ts }) ∧
    (∀ ts, s.turns = .resetRelease :: ts → step s = takeTurn .resetRelease { s with turns := ts }) ∧
    (s.turns = [] → s.busy = false → step s = .next s)

/-- R78, R93, R95: on the engine's turn a word in flight that decoding rejects completes with its code, whatever STATE
and LDATA are, and changes nothing else: ERRCODE is 0x102 (BADCMD) or 0x103 (BADLEN), OUT_LEN 0, BUSY 0. So says
the engine's own step, and so does the machine's when the engine's turn stands first or no turn is left (the list
of turns is the model's choice, log entry 7). -/
def Obligations.IllegalWordCompletesWithItsCode : Prop :=
  ∀ (s : State) (code : Word), s.busy = true →
    (decode s.lcmd = .badcmd ∧ code = 0x102) ∨ (decode s.lcmd = .badlen ∧ code = 0x103) →
    engineStep s = .next { s with errcode := code, outLen := 0, busy := false } ∧
    (∀ ts, s.turns = .engine :: ts →
      step s = .next { s with turns := ts, errcode := code, outLen := 0, busy := false }) ∧
    (s.turns = [] → step s = .next { s with errcode := code, outLen := 0, busy := false })

/-- R93, R94, R95, R212: a command outside the states R94 gives it completes with SEQ (0x101) and changes nothing else;
a LEN over 1024 gives BADLEN (0x103) first. (No word decodes to a command with such a LEN: that exec of one gives
BADLEN is the model's reading, log entry 12.) -/
def Obligations.WrongStateCompletesWithSeq : Prop :=
  ∀ (i : Instr) (s : State),
    (i.wf = true → legalIn i s.fsm = false →
      exec i s = .next { s with errcode := 0x101, outLen := 0, busy := false }) ∧
    (i.wf = false → exec i s = .next { s with errcode := 0x103, outLen := 0, busy := false })

/-- R94: a command that completes without an error was legal in its state and leaves the state of the table's last
column. -/
def Obligations.SuccessFollowsTheStateTable : Prop :=
  ∀ (i : Instr) (s t : State), exec i s = .next t → t.errcode = 0 →
    legalIn i s.fsm = true ∧ t.fsm = afterSuccess i s.fsm

/-- R96, R214: a completion whose KIND is 2 has the code INIT_FAIL, FINAL_LEN or FINAL_PAD and is an entry to FAULT:
both contexts, the key material and DIGEST are zero, nothing is emitted, and nothing else changes (CDIR, CMD_OVR,
the latches and every byte of the window among it). -/
def Obligations.CryptoErrorEntersFault : Prop :=
  ∀ (i : Instr) (s t : State), exec i s = .next t → t.errKind = 2 →
    t.errcode ∈ [(0x211 : Word), 0x213, 0x214] ∧
    t = { s with
      ckey := zeros 32, cv := zeros 16, cbuf := [], held := zeros 16, heldv := false
      hs := .zero, hlen := 0, hbuf := [], key := zeros 32, iv := zeros 16, keyv := false
      digest := zeros 32, fsm := .fault, errcode := t.errcode, outLen := 0, busy := false }

/-- R96, R216: a step leaves FAULT only by the completion of CLEAR, into UNINIT, or by the reset input. -/
def Obligations.OnlyClearOrResetLeavesFault : Prop :=
  ∀ s t : State, s.fsm = .fault → step s = .next t → t.fsm ≠ .fault →
    t.fsm = .uninit ∧
    ((s.busy = true ∧ s.lcmd = 0x00000001 ∧ (s.turns = [] ∨ ∃ ts, s.turns = .engine :: ts)) ∨
      (∃ ts, s.turns = .resetAssert :: ts) ∨ (∃ ts, s.turns = .resetRelease :: ts))

/-- R28: CMD_OVR is sticky: it rises when, and only when, a CMD write is dropped because BUSY = 1; it falls only at the
completion of CLEAR, on the engine's turn, or at an edge of reset, and CLEAR and reset set it to 0. (That the edge
which asserts reset sets it to 0 at once is the model's reading, log entry 9; the turns are log entry 7.) -/
def Obligations.CmdOvrIsSticky : Prop :=
  ∀ s : State,
    (s.inReset = false → s.busy = true → ∀ v, (busAccess (.write s.cfg.base 4 v) s).cmdOvr = true) ∧
    (∀ t, exec .clear s = .next t → t.cmdOvr = false) ∧
    (∀ t, takeTurn .resetAssert s = .next t → t.cmdOvr = false) ∧
    (∀ t, step s = .next t →
      (s.cmdOvr = true → t.cmdOvr = false →
        (s.busy = true ∧ s.lcmd = 0x00000001 ∧ (s.turns = [] ∨ ∃ ts, s.turns = .engine :: ts)) ∨
          (∃ ts, s.turns = .resetAssert :: ts) ∨ (∃ ts, s.turns = .resetRelease :: ts)) ∧
      (s.cmdOvr = false → t.cmdOvr = true →
        s.busy = true ∧ ∃ v ts, s.turns = .host (.write s.cfg.base 4 v) :: ts))

/-- R100: every state has a next state: no command, access or reset stops the machine. -/
def Obligations.EveryStateHasANextState : Prop :=
  ∀ s : State, ∃ t, step s = .next t

/-- R33: no step changes BASE, SALT, KDF_VARIANT or BLOCK_CIPHER. -/
def Obligations.ParametersNeverChange : Prop :=
  ∀ s t : State, step s = .next t → t.cfg = s.cfg

/-- R43 and what R29, R31, R37, R44, R90, R101, R160 and R172 add to it: every step keeps the invariants. -/
def Obligations.EveryStepKeepsTheInvariants : Prop :=
  ∀ s t : State, s.Inv → step s = .next t → t.Inv

/-- R45: the invariants hold right after reset, for every instance. -/
def Obligations.ResetMeetsTheInvariants : Prop :=
  ∀ c : Config, (State.resetOf c).Inv

/-- R101: no command emits more than its bound, so DATA_OUT always holds a whole output. -/
def Obligations.OutputsFitDataOut : Prop :=
  ∀ (i : Instr) (s t : State), s.Inv → exec i s = .next t → t.outLen.toNat ≤ outputBound i

/-- R27, R59, R64: a host access changes at most the command latch, ERRCODE, OUT_LEN, CMD_OVR, the window's storage
and the response: STATE, the contexts, the key material and DIGEST stay. -/
def Obligations.HostAccessKeepsTheEngine : Prop :=
  ∀ (a : Access) (s : State), ∃ lcmd ldata busy errcode outLen cmdOvr mem resp draws,
    busAccess a s = { s with
      lcmd := lcmd, ldata := ldata, busy := busy, errcode := errcode, outLen := outLen
      cmdOvr := cmdOvr, mem := mem, resp := resp, draws := draws }

/-- R60: no command writes DATA_IN. -/
def Obligations.CommandsKeepDataIn : Prop :=
  ∀ (i : Instr) (s t : State), exec i s = .next t → ∀ k, k < 1024 → t.dataInByte k = s.dataInByte k

/-! ### Reset -/

/-- R45, R235, R236: asserting reset, with or without a command in flight, ends the command; releasing it leaves every
element of the engine at the value of R45's table, so STATUS is 0, and the parameters as they were. DATA_IN and
DATA_OUT hold no stated byte. (The model's own fields: the response of the last access is forgotten, the epoch of
DATA_IN's free bytes counts both edges, log entries 3 and 8.) -/
def Obligations.ResetGivesTheResetValues : Prop :=
  ∀ s : State, ∃ u v, takeTurn .resetAssert s = .next u ∧ u.inReset = true ∧ u.busy = false ∧
    takeTurn .resetRelease u = .next v ∧ v.status = 0 ∧
    v = { s with
      busy := false, fsm := .uninit, keyv := false, key := zeros 32, iv := zeros 16
      cdir := false, ckey := zeros 32, cv := zeros 16, cbuf := [], held := zeros 16, heldv := false
      hs := ⟨0, 0, 0, 0, 0, 0, 0, 0⟩, hlen := 0, hbuf := [], digest := zeros 32
      lcmd := 0, ldata := zeros 1024, cmdOvr := false, errcode := 0, outLen := 0, mem := []
      inReset := false, resp := none, epoch := s.epoch + 2 }

/-- R235: while reset is asserted a read returns 0 and no access has an effect. (That the host gets no bus error then,
whatever the access, is the model's reading: log entry 9.) -/
def Obligations.AssertedResetIgnoresTheBus : Prop :=
  ∀ (s : State) (off n : Nat) (v : Word), s.inReset = true → off < 4096 →
    busAccess (.read (s.cfg.base + off) n) s = { s with resp := some ⟨0, false⟩ } ∧
    busAccess (.write (s.cfg.base + off) n v) s = { s with resp := some ⟨0, false⟩ }

/-! ### The window -/

/-- R25, R26, R34, R41: the number the STATUS register reads as, field by field. -/
def Obligations.StatusFields : Prop :=
  ∀ s : State,
    s.status.toNat = s.busy.toNat + 2 * (decide (s.errcode.toNat % 256 ≠ 0)).toNat + 4 * s.keyv.toNat
      + 8 * (decide (s.fsm = .cInit ∨ s.fsm = .cStream ∨ s.fsm = .cFinal) && s.cdir).toNat
      + 16 * (match s.fsm with
        | .uninit => 0 | .cInit => 1 | .cStream => 2 | .cFinal => 3
        | .dInit => 4 | .dAccum => 5 | .dFinal => 6 | .fault => 7)
      + 256 * s.cmdOvr.toNat

/-- R23, R24, R25, R29, R30: 32-bit reads of CMD, STATUS, ERRCODE and OUT_LEN, out of reset. -/
def Obligations.RegisterReads : Prop :=
  ∀ s : State, s.inReset = false →
    busAccess (.read s.cfg.base 4) s = { s with resp := some ⟨0, false⟩, draws := s.draws + 4 } ∧
    busAccess (.read (s.cfg.base + 4) 4) s = { s with resp := some ⟨s.status, false⟩, draws := s.draws + 4 } ∧
    busAccess (.read (s.cfg.base + 8) 4) s = { s with resp := some ⟨s.errcode, false⟩, draws := s.draws + 4 } ∧
    busAccess (.read (s.cfg.base + 12) 4) s =
      { s with resp := some ⟨BitVec.ofNat 32 s.outLen.toNat, false⟩, draws := s.draws + 4 }

/-- R51: BASE is a multiple of 4096, host address BASE + off is window offset off, and an access outside
[BASE, BASE + 4096) does not reach the engine: it changes nothing. (That no response is
recorded then, resp = none, is the model's choice, log entry 10.) -/
def Obligations.OutsideTheWindowNothingHappens : Prop :=
  ∀ (s : State) (addr n : Nat) (v : Word), 4096 ∣ s.cfg.base ∧
    (∀ off, off < 4096 → windowOffset s.cfg (s.cfg.base + off) = some off) ∧
    (addr < s.cfg.base ∨ s.cfg.base + 4096 ≤ addr →
      busAccess (.read addr n) s = { s with resp := none } ∧
      busAccess (.write addr n v) s = { s with resp := none })

/-- R55, R56: out of reset, an access gets the bus error response exactly when R55 does not make it legal; then
nothing changes and a read returns 0. -/
def Obligations.IllegalAccessesGetABusError : Prop :=
  ∀ (s : State) (off n : Nat) (v : Word), s.inReset = false → off < 4096 →
    let legal := (off < 0x400 ∧ n = 4 ∧ off % 4 = 0) ∨
      (0x400 ≤ off ∧ (n = 1 ∨ (n = 2 ∧ off % 2 = 0) ∨ (n = 4 ∧ off % 4 = 0)))
    (legal → ∃ d, (busAccess (.read (s.cfg.base + off) n) s).resp = some ⟨d, false⟩) ∧
    (legal → (busAccess (.write (s.cfg.base + off) n v) s).resp = some ⟨0, false⟩) ∧
    (¬ legal → busAccess (.read (s.cfg.base + off) n) s = { s with resp := some ⟨0, true⟩ } ∧
      busAccess (.write (s.cfg.base + off) n v) s = { s with resp := some ⟨0, true⟩ })

/-- R57: reserved offsets read as zero and ignore writes, for every legal access. -/
def Obligations.ReservedOffsetsReadZero : Prop :=
  ∀ (s : State) (off n : Nat) (v : Word), s.inReset = false →
    (0x010 ≤ off ∧ off < 0x400) ∨ (0xC00 ≤ off ∧ off < 0x1000) → accessLegal off n = true →
    busAccess (.read (s.cfg.base + off) n) s = { s with resp := some ⟨0, false⟩, draws := s.draws + n } ∧
    busAccess (.write (s.cfg.base + off) n v) s = { s with resp := some ⟨0, false⟩ }

/-- R58: writes to STATUS, ERRCODE, OUT_LEN and DATA_OUT have no effect and no error; a read of CMD returns 0. -/
def Obligations.ReadOnlyOffsetsIgnoreWrites : Prop :=
  ∀ (s : State) (off n : Nat) (v : Word), s.inReset = false →
    ((0x004 ≤ off ∧ off < 0x010) ∨ (0x800 ≤ off ∧ off < 0xC00) → accessLegal off n = true →
      busAccess (.write (s.cfg.base + off) n v) s = { s with resp := some ⟨0, false⟩ }) ∧
    (busAccess (.read s.cfg.base 4) s).resp = some ⟨0, false⟩

/-- R53, R60: a legal write to DATA_IN, BUSY or not, stores byte k of the value at DATA_IN[i+k], changes no other byte
of the window and nothing else, and the same read then returns the value. -/
def Obligations.DataInHoldsWhatIsWritten : Prop :=
  ∀ (s : State) (i n : Nat) (v : Word), s.inReset = false → i < 1024 → accessLegal (0x400 + i) n = true →
    let t := busAccess (.write (s.cfg.base + (0x400 + i)) n v) s
    (∀ k, k < n → t.dataInByte (i + k) = v.extractLsb' (8 * k) 8) ∧
    (∀ a, a < 0x400 + i ∨ 0x400 + i + n ≤ a → t.mem.read a = s.mem.read a) ∧
    t = { s with mem := t.mem, resp := some ⟨0, false⟩ } ∧
    (busAccess (.read (s.cfg.base + (0x400 + i)) n) t).resp = some ⟨BitVec.ofNat 32 (v.toNat % 2 ^ (8 * n)), false⟩

/-- R53, R61: a legal read of DATA_OUT: byte k of the value is DATA_OUT[i+k] where BUSY = 0 and i+k < OUT_LEN, and an
unspecified byte, drawn afresh, where BUSY = 1 or i+k >= OUT_LEN. -/
def Obligations.DataOutReads : Prop :=
  ∀ (s : State) (i n : Nat), s.inReset = false → i < 1024 → accessLegal (0x800 + i) n = true →
    ∃ d, busAccess (.read (s.cfg.base + (0x800 + i)) n) s = { s with resp := some ⟨d, false⟩, draws := s.draws + n } ∧
      d.toNat < 2 ^ (8 * n) ∧
      ∀ k, k < n →
        (s.busy = false → i + k < s.outLen.toNat → ∀ b, s.dataOutByte (i + k) = some b → d.extractLsb' (8 * k) 8 = b) ∧
        (s.busy = true ∨ s.outLen.toNat ≤ i + k → d.extractLsb' (8 * k) 8 = Config.freeByte (s.draws + k))

/-- R59: a read changes nothing of the engine, and, outside DATA_OUT, the same read again gives the same response. -/
def Obligations.ReadsHaveNoSideEffect : Prop :=
  ∀ (s : State) (addr n : Nat),
    let t := busAccess (.read addr n) s
    t = { s with resp := t.resp, draws := t.draws } ∧
    ((addr < s.cfg.base + 0x800 ∨ s.cfg.base + 0xC00 ≤ addr) → (busAccess (.read addr n) t).resp = t.resp)

/-- R90: a 32-bit CMD write while BUSY = 0 is accepted whatever its value: LCMD, LDATA (all 1024 bytes of DATA_IN),
BUSY, ERRCODE and OUT_LEN, and nothing else; an illegal word then completes with an error. -/
def Obligations.CommandIsAccepted : Prop :=
  ∀ (s : State) (v : Word), s.inReset = false → s.busy = false →
    let t := busAccess (.write s.cfg.base 4 v) s
    (∀ k, k < 1024 → t.ldata.toList[k]? = some (s.dataInByte k)) ∧
    t = { s with lcmd := v, ldata := t.ldata, busy := true, errcode := 0, outLen := 0, resp := some ⟨0, false⟩ } ∧
    ((∀ i, decode v ≠ .command i) → ∃ u, engineStep t = .next u ∧ u.errKind = 1 ∧ u.busy = false)

/-- R91: a CMD write while BUSY = 1 is dropped: only CMD_OVR rises. -/
def Obligations.CommandWhileBusyIsDropped : Prop :=
  ∀ (s : State) (v : Word), s.inReset = false → s.busy = true →
    busAccess (.write s.cfg.base 4 v) s = { s with cmdOvr := true, resp := some ⟨0, false⟩ }

/-- R42: whatever the elements without an offset hold, the host gets the same responses to every sequence of
accesses. -/
def Obligations.HiddenStateIsNotReadable : Prop :=
  ∀ (as : List Access) (s h : State), responses as (s.withHidden h) = responses as s

/-- R65, R82, R92: a host that waits, after any number of polls that read BUSY = 1, ends with the completed state, reads
BUSY = 0, and has changed nothing of the engine by polling; on an idle engine it stops at its first poll. (That the
number of polls is given, and that the model counts the bytes read, are the model's choices, log entries 2 and 13.) -/
def Obligations.WaitingEndsWithTheCompletion : Prop :=
  ∀ (polls : Nat) (s : State), s.inReset = false →
    ∃ u, engineStep s = .next u ∧ u.busy = false ∧
      hostWait polls s = .next
        { u with resp := some ⟨u.status, false⟩, draws := s.draws + 4 * (if s.busy = true then polls + 1 else 1) }

/-! ### CLEAR and KDF -/

/-- R99: CLEAR completes in every state, FAULT included: both contexts, the key material, DIGEST, CDIR and CMD_OVR
are zero, STATE is UNINIT, OUT_LEN is 0, every byte of the window is kept, and so are the parameters. (LCMD and
LDATA are zeroed too, from R99's sentence "After CLEAR the state equals the reset state": the model's reading, log
entry 5.) -/
def Obligations.ClearGivesTheResetState : Prop :=
  ∀ s : State, exec .clear s = .next
    { s with
      ckey := zeros 32, cv := zeros 16, cbuf := [], held := zeros 16, heldv := false, cdir := false
      hs := ⟨0, 0, 0, 0, 0, 0, 0, 0⟩, hlen := 0, hbuf := [], key := zeros 32, iv := zeros 16, keyv := false
      digest := zeros 32, cmdOvr := false, fsm := .uninit, lcmd := 0, ldata := zeros 1024
      outLen := 0, errcode := 0, busy := false }

/-- R110, R115, R119: KDF of n bytes, in an idle state, completes: KEY is bytes 0 to 31 and IV bytes 32 to 47 of the
48-byte derivation from the first n bytes of LDATA, which are then zero; KEYV is 1; nothing else changes. -/
def Obligations.KdfDerivesKeyAndIv : Prop :=
  ∀ (s : State) (n : BitVec 11), n.toNat ≤ 1024 → legalIn (.kdf n) s.fsm = true →
    ∃ t, exec (.kdf n) s = .next t ∧
      t.key.toList ++ t.iv.toList = kdfOutput s.cfg (s.ldata.toList.take n.toNat) ∧
      t.ldata.toList = List.replicate n.toNat 0 ++ s.ldata.toList.drop n.toNat ∧
      t = { s with
        key := t.key, iv := t.iv, keyv := true, ldata := t.ldata
        errcode := 0, outLen := 0, busy := false }

/-- R111 to R114: the two constructions of KDF(P), for every salt, and HMAC-SHA-256: its key block k0 is 64 bytes, the
key or, over 64 bytes, its digest, filled up with zeros, and the digest is taken of k0 ^ 0x5c..., followed by the
digest of k0 ^ 0x36... and the message. -/
def Obligations.KdfConstructions : Prop :=
  ∀ (c : Config) (p : Bytes),
    (c.kdfVariant = .bytesToKeySha256 →
      kdfOutput c p = sha256 (p ++ c.salt.toList) ++ (sha256 (sha256 (p ++ c.salt.toList) ++ p ++ c.salt.toList)).take 16) ∧
    (c.kdfVariant = .pbkdf2HmacSha256 →
      kdfOutput c p = hmacSha256 p (c.salt.toList ++ [0, 0, 0, 1]) ++ (hmacSha256 p (c.salt.toList ++ [0, 0, 0, 2])).take 16) ∧
    (kdfOutput c p).length = 48 ∧
    ∀ k m : Bytes,
      let k0 := if 64 < k.length then sha256 k ++ List.replicate 32 0 else k ++ List.replicate (64 - k.length) 0
      k0.length = 64 ∧
      hmacSha256 k m = sha256 (k0.map (· ^^^ 0x5c) ++ sha256 (k0.map (· ^^^ 0x36) ++ m))

/-! ### Cipher mode -/

/-- R126: CIPHER_INIT with key material, in an idle state, completes: the context takes KEY, IV and DIR, the key
material is consumed, the hash context and DIGEST are zeroized, and nothing else changes. -/
def Obligations.CipherInitBindsTheContext : Prop :=
  ∀ (s : State) (dir : Bool), legalIn (.cipherInit dir) s.fsm = true → s.keyv = true →
    exec (.cipherInit dir) s = .next
      { s with
        hs := .zero, hlen := 0, hbuf := [], digest := zeros 32
        cdir := dir, ckey := s.key, cv := s.iv, cbuf := [], held := zeros 16, heldv := false
        key := zeros 32, iv := zeros 16, keyv := false, fsm := .cInit
        errcode := 0, outLen := 0, busy := false }

/-- R126, R96: CIPHER_INIT without key material, in an idle state, fails with INIT_FAIL (0x211) and enters FAULT. -/
def Obligations.CipherInitWithoutKeyFails : Prop :=
  ∀ (s : State) (dir : Bool), legalIn (.cipherInit dir) s.fsm = true → s.keyv = false →
    exec (.cipherInit dir) s = .next
      { s with
        ckey := zeros 32, cv := zeros 16, cbuf := [], held := zeros 16, heldv := false
        hs := .zero, hlen := 0, hbuf := [], key := zeros 32, iv := zeros 16, keyv := false
        digest := zeros 32, fsm := .fault, errcode := 0x211, outLen := 0, busy := false }

/-- R131: CIPHER_UPDATE of 0 bytes, in a cipher context, completes, emits nothing and changes only STATE. -/
def Obligations.ZeroLengthCipherUpdate : Prop :=
  ∀ s : State, legalIn (.cipherUpdate 0) s.fsm = true →
    exec (.cipherUpdate 0) s = .next { s with fsm := .cStream, errcode := 0, outLen := 0, busy := false }

/-- R127, R131, R132: CIPHER_UPDATE of n >= 1 bytes in an encrypt context completes. With t = CBUF || d and
nb = floor(len(t)/16) it emits 16·nb bytes, block j of them E(CKEY, t_j ^ C_(j-1)) with C_(-1) the old CV; CV becomes
the last block emitted (it stays if none is), CBUF the bytes of t that are left; HELD, HELD_V and everything else
stay. -/
def Obligations.EncryptUpdateIsCbc : Prop :=
  ∀ (s : State) (n : BitVec 11), 1 ≤ n.toNat → n.toNat ≤ 1024 → legalIn (.cipherUpdate n) s.fsm = true →
    s.cdir = true →
    let t := s.cbuf ++ s.ldata.toList.take n.toNat
    let nb := t.length / 16
    ∃ u out, exec (.cipherUpdate n) s = .next u ∧ Emitted s u out ∧ out.length = 16 * nb ∧
      (∀ j, j < nb →
        fit 16 (out.drop (16 * j)) =
          blockEncrypt s.cfg.blockCipher s.ckey
            (xorBlock (fit 16 (t.drop (16 * j))) (if j = 0 then s.cv else fit 16 (out.drop (16 * (j - 1)))))) ∧
      u.cv = (if nb = 0 then s.cv else fit 16 (out.drop (16 * (nb - 1)))) ∧
      u.cbuf = t.drop (16 * nb) ∧
      u = { s with
        cv := u.cv, cbuf := u.cbuf, fsm := .cStream
        mem := u.mem, errcode := 0, outLen := u.outLen, busy := false }

/-- R128, R131, R133: CIPHER_UPDATE of n >= 1 bytes in a decrypt context completes. With t = CBUF || d,
nb = floor(len(t)/16), P_j = D(CKEY, t_j) ^ t_(j-1) (t_(-1) the old CV) and rel the block held back before (none if
HELD_V = 0), it emits rel || P_0 || ... || P_(nb-1), less its last block where nb > 0 and t ends on a block
boundary: that block goes to HELD and HELD_V becomes 1. CV becomes the last ciphertext block, CBUF the bytes left;
nothing else changes. -/
def Obligations.DecryptUpdateHoldsTheLastBlock : Prop :=
  ∀ (s : State) (n : BitVec 11), 1 ≤ n.toNat → n.toNat ≤ 1024 → legalIn (.cipherUpdate n) s.fsm = true →
    s.cdir = false →
    let t := s.cbuf ++ s.ldata.toList.take n.toNat
    let nb := t.length / 16
    let rel := if s.heldv = true then s.held.toList else []
    ∃ u plain out, exec (.cipherUpdate n) s = .next u ∧ Emitted s u out ∧ plain.length = 16 * nb ∧
      (∀ j, j < nb →
        fit 16 (plain.drop (16 * j)) =
          xorBlock (blockDecrypt s.cfg.blockCipher s.ckey (fit 16 (t.drop (16 * j))))
            (if j = 0 then s.cv else fit 16 (t.drop (16 * (j - 1))))) ∧
      u.cv = (if nb = 0 then s.cv else fit 16 (t.drop (16 * (nb - 1)))) ∧
      u.cbuf = t.drop (16 * nb) ∧
      (if 0 < nb ∧ t.length % 16 = 0 then
        out ++ u.held.toList = rel ++ plain ∧ u.heldv = true
      else
        out = rel ++ plain ∧ u.heldv = false ∧ u.held = (if s.heldv = true then zeros 16 else s.held)) ∧
      u = { s with
        cv := u.cv, cbuf := u.cbuf, held := u.held, heldv := u.heldv, fsm := .cStream
        mem := u.mem, errcode := 0, outLen := u.outLen, busy := false }

/-- R139 to R141: CIPHER_FINAL in an encrypt context with len(CBUF) <= 15 (R43) completes and emits the one block
E(CKEY, (CBUF || rep(p, p)) ^ CV) with p = 16 - len(CBUF); the context is zeroized, CDIR is kept, STATE is C_FINAL,
and nothing else changes. -/
def Obligations.EncryptFinalPads : Prop :=
  ∀ s : State, legalIn .cipherFinal s.fsm = true → s.cdir = true → s.cbuf.length ≤ 15 →
    let p := 16 - s.cbuf.length
    ∃ t out, exec .cipherFinal s = .next t ∧ Emitted s t out ∧
      out = (blockEncrypt s.cfg.blockCipher s.ckey
        (xorBlock (fit 16 (s.cbuf ++ List.replicate p (BitVec.ofNat 8 p))) s.cv)).toList ∧
      t = { s with
        ckey := zeros 32, cv := zeros 16, cbuf := [], held := zeros 16, heldv := false, fsm := .cFinal
        mem := t.mem, errcode := 0, outLen := 16, busy := false }

/-- R139, R140, R142: CIPHER_FINAL in a decrypt context with CBUF empty, HELD_V = 1 and HELD = m || rep(p, p),
1 <= p <= 16, completes and emits m; the context is zeroized, STATE is C_FINAL, and nothing else changes. -/
def Obligations.DecryptFinalStripsThePadding : Prop :=
  ∀ (s : State) (m : Bytes) (p : Nat), legalIn .cipherFinal s.fsm = true → s.cdir = false → s.cbuf = [] →
    s.heldv = true → 1 ≤ p → p ≤ 16 → s.held.toList = m ++ List.replicate p (BitVec.ofNat 8 p) →
    ∃ t, exec .cipherFinal s = .next t ∧ Emitted s t m ∧
      t = { s with
        ckey := zeros 32, cv := zeros 16, cbuf := [], held := zeros 16, heldv := false, fsm := .cFinal
        mem := t.mem, errcode := 0, outLen := BitVec.ofNat 11 (16 - p), busy := false }

/-- R142, R96, R212: CIPHER_FINAL in a decrypt context fails with FINAL_LEN (0x213) when CBUF is not empty or
HELD_V = 0, and otherwise with FINAL_PAD (0x214) when HELD is no block m || rep(p, p) with 1 <= p <= 16; both enter
FAULT. -/
def Obligations.DecryptFinalErrors : Prop :=
  ∀ s : State, legalIn .cipherFinal s.fsm = true → s.cdir = false →
    let failed (code : Word) : State :=
      { s with
        ckey := zeros 32, cv := zeros 16, cbuf := [], held := zeros 16, heldv := false
        hs := .zero, hlen := 0, hbuf := [], key := zeros 32, iv := zeros 16, keyv := false
        digest := zeros 32, fsm := .fault, errcode := code, outLen := 0, busy := false }
    (s.cbuf ≠ [] ∨ s.heldv = false → exec .cipherFinal s = .next (failed 0x213)) ∧
    (s.cbuf = [] → s.heldv = true →
      (¬ ∃ (m : Bytes) (p : Nat), 1 ≤ p ∧ p ≤ 16 ∧ s.held.toList = m ++ List.replicate p (BitVec.ofNat 8 p)) →
      exec .cipherFinal s = .next (failed 0x214))

/-- R156: AES256 decryption inverts its encryption: D(K, E(K, x)) = x for every K and x. -/
def Obligations.AesDecryptionInvertsEncryption : Prop :=
  cipherLawful .aes256

/-- R149, R150: InvS inverts S, and S is the affine map of the multiplicative inverse in the field. -/
def Obligations.SboxIsTheAffineInverse : Prop :=
  (∀ a : Byte, invSbox (sbox a) = a ∧ sbox (invSbox a) = a) ∧
  (∀ a : Byte, ∃ b : Byte, (a = 0 → b = 0) ∧ (a ≠ 0 → gfMul a b = 1) ∧
    ∀ i, i < 8 → (sbox a).getLsbD i =
      (b.getLsbD i ^^ b.getLsbD ((i + 4) % 8) ^^ b.getLsbD ((i + 5) % 8) ^^ b.getLsbD ((i + 6) % 8)
        ^^ b.getLsbD ((i + 7) % 8) ^^ (0x63#8).getLsbD i))

/-- R134: after the updates of an encrypt context, of any chunk sizes, 16·floor(T/16) bytes are emitted, those that
one update of all T bytes at once would emit, and CBUF holds the last T mod 16 bytes of the input. -/
def Obligations.EncryptionIgnoresTheChunking : Prop :=
  ∀ (chunks : List Bytes) (s : State), chunksFit chunks → s.fsm = .cInit → s.cdir = true → s.cbuf = [] →
    let m := chunks.flatten
    ∃ t out, feed .cipherUpdate chunks s = .next (t, out) ∧
      out.length = 16 * (m.length / 16) ∧
      (t.cv, out) = cbcEncrypt s.enc s.cv (splitBlocks 16 (m.length / 16) m) ∧
      t.cbuf = m.drop (16 * (m.length / 16)) ∧
      t.ckey = s.ckey ∧ t.cdir = true ∧ (t.fsm = .cInit ∨ t.fsm = .cStream)

/-- R135: after the updates of a decrypt context, of any chunk sizes that add up to T bytes, HELD_V = 1 exactly when
T > 0 and T mod 16 = 0; then CBUF is empty and 16·floor(T/16) - 16 bytes are emitted, otherwise 16·floor(T/16). What
is emitted, and HELD after it, is the CBC decryption of the complete blocks. -/
def Obligations.DecryptionIgnoresTheChunking : Prop :=
  ∀ (chunks : List Bytes) (s : State), chunksFit chunks → s.fsm = .cInit → s.cdir = false → s.cbuf = [] →
    s.heldv = false →
    let c := chunks.flatten
    ∃ t out, feed .cipherUpdate chunks s = .next (t, out) ∧
      (t.heldv = true ↔ 0 < c.length ∧ c.length % 16 = 0) ∧
      t.cbuf = c.drop (16 * (c.length / 16)) ∧
      (t.cv, out ++ (if t.heldv = true then t.held.toList else [])) =
        cbcDecrypt s.dec s.cv (splitBlocks 16 (c.length / 16) c) ∧
      out.length = 16 * (c.length / 16) - (if t.heldv = true then 16 else 0) ∧
      t.ckey = s.ckey ∧ t.cdir = false ∧ (t.fsm = .cInit ∨ t.fsm = .cStream)

/-- R145, R146, R158: for every instance (AES256, or any other pair R146 admits, given as log entry 4 says), every
passphrase and every message, the empty one included, cut into chunks in any way: encrypting under the passphrase gives 16·(floor(len(m)/16) + 1) bytes, and
decrypting those, cut in any way, under the same passphrase gives back the message, CIPHER_FINAL succeeding. -/
def Obligations.DecryptionInvertsEncryption : Prop :=
  ∀ (s : State) (pass : Bytes) (chunks : List Bytes), s.fsm.idle = true →
    pass.length ≤ 1024 → chunksFit chunks →
    ∃ t c, transform true pass chunks s = .next (t, c) ∧ t.errcode = 0 ∧ t.fsm = .cFinal ∧
      c.length = 16 * (chunks.flatten.length / 16 + 1) ∧
      ∀ chunks', chunksFit chunks' → chunks'.flatten = c →
        ∃ u, transform false pass chunks' t = .next (u, chunks.flatten) ∧ u.errcode = 0 ∧ u.fsm = .cFinal

/-- R144: with no bytes fed, by no update or by any number of zero-length updates, decryption emits nothing and ends in
FINAL_LEN and FAULT, whatever the passphrase. -/
def Obligations.EmptyCiphertextFails : Prop :=
  ∀ (s : State) (pass : Bytes) (chunks : List Bytes), s.fsm.idle = true → pass.length ≤ 1024 →
    chunks.flatten = [] →
    ∃ t, transform false pass chunks s = .next (t, []) ∧ t.errcode = 0x213 ∧ t.fsm = .fault

/-! ### Digest mode and HEX -/

/-- R160, R167: DIGEST_INIT, in an idle state, completes: a fresh hash context, the cipher context and DIGEST
zeroized, CDIR 0; the key material and everything else stay. -/
def Obligations.DigestInitStartsAFreshContext : Prop :=
  ∀ s : State, legalIn .digestInit s.fsm = true →
    exec .digestInit s = .next
      { s with
        ckey := zeros 32, cv := zeros 16, cbuf := [], held := zeros 16, heldv := false, cdir := false
        digest := zeros 32, hlen := 0, hbuf := []
        hs := ⟨0x6a09e667, 0xbb67ae85, 0x3c6ef372, 0xa54ff53a, 0x510e527f, 0x9b05688c, 0x1f83d9ab, 0x5be0cd19⟩
        fsm := .dInit, errcode := 0, outLen := 0, busy := false }

/-- R161: DIGEST_UPDATE of n bytes in a hash context completes and emits nothing: with t = HBUF || d, HS takes the
compression of each complete 64-byte block of t in order (hs j is HS after j of them), HBUF the bytes left, HLEN
grows by n modulo 2^61; nothing else changes. -/
def Obligations.DigestUpdateFoldsTheChunk : Prop :=
  ∀ (s : State) (n : BitVec 11), n.toNat ≤ 1024 → legalIn (.digestUpdate n) s.fsm = true →
    let t := s.hbuf ++ s.ldata.toList.take n.toNat
    let nb := t.length / 64
    ∃ (u : State) (hs : Nat → HashWords), exec (.digestUpdate n) s = .next u ∧
      hs 0 = s.hs ∧ (∀ j, j < nb → hs (j + 1) = compress (hs j) ((t.drop (64 * j)).take 64)) ∧ u.hs = hs nb ∧
      u.hbuf = t.drop (64 * nb) ∧ u.hlen.toNat = (s.hlen.toNat + n.toNat) % 2 ^ 61 ∧
      u = { s with
        hs := u.hs, hbuf := u.hbuf, hlen := u.hlen, fsm := .dAccum
        errcode := 0, outLen := 0, busy := false }

/-- R162, R170: DIGEST_FINAL in a hash context completes and emits the 32 bytes of the last chaining value, big-endian
word by word, after the blocks of HBUF || 0x80 || zeros || 8·HLEN as 8 bytes; DIGEST holds them, the hash context is
zeroized, STATE is D_FINAL, and nothing else changes. -/
def Obligations.DigestFinalEmitsTheDigest : Prop :=
  ∀ s : State, legalIn .digestFinal s.fsm = true →
    let z := (119 - s.hlen.toNat % 64) % 64
    let t := s.hbuf ++ [0x80] ++ List.replicate z 0 ++ toBE64 (BitVec.ofNat 64 (8 * s.hlen.toNat))
    let h := compressAll s.hs t
    ∃ u out, exec .digestFinal s = .next u ∧ Emitted s u out ∧ out.length = 32 ∧ u.digest.toList = out ∧
      out = [h.w0, h.w1, h.w2, h.w3, h.w4, h.w5, h.w6, h.w7].flatMap toBE32 ∧
      u = { s with
        hs := .zero, hlen := 0, hbuf := [], digest := u.digest, fsm := .dFinal
        mem := u.mem, errcode := 0, outLen := 32, busy := false }

/-- R172: a context that receives DIGEST_INIT, updates whose chunks concatenate to m (fewer than 2^61 bytes), and
DIGEST_FINAL emits SHA256(m), whatever the chunk sizes, and DIGEST holds it. -/
def Obligations.StreamedDigestIsSha256 : Prop :=
  ∀ (s : State) (chunks : List Bytes), s.fsm.idle = true → chunksFit chunks → chunks.flatten.length < 2 ^ 61 →
    ∃ s0 t, exec .digestInit s = .next s0 ∧
      feedAndFinish .digestUpdate .digestFinal chunks s0 = .next (t, sha256 chunks.flatten) ∧
      t.errcode = 0 ∧ t.fsm = .dFinal ∧ t.digest.toList = sha256 chunks.flatten

/-- R185, R186: HEX in D_FINAL completes and emits 64 bytes: characters 2k and 2k+1 are the lowercase hexadecimal
digits of DIGEST[k], high nibble first, in ASCII; nothing else changes. -/
def Obligations.HexFormatsTheDigest : Prop :=
  ∀ s : State, legalIn .hex s.fsm = true →
    let digit (v : Nat) : Byte := BitVec.ofNat 8 (if v < 10 then 0x30 + v else 0x61 + (v - 10))
    ∃ t out, exec .hex s = .next t ∧ Emitted s t out ∧ out.length = 64 ∧
      (∀ (k : Nat) (b : Byte), s.digest.toList[k]? = some b →
        out[2 * k]? = some (digit (b.toNat / 16)) ∧ out[2 * k + 1]? = some (digit (b.toNat % 16))) ∧
      t = { s with mem := t.mem, errcode := 0, outLen := 64, busy := false }

/-- R187: the formatter is injective, its output is twice as long as its input, and it produces no byte but '0' to
'9' and 'a' to 'f'. -/
def Obligations.HexIsInjective : Prop :=
  (∀ d d' : Bytes, hexString d = hexString d' → d = d') ∧
  (∀ d : Bytes, (hexString d).length = 2 * d.length ∧
    ∀ b ∈ hexString d, (0x30 ≤ b.toNat ∧ b.toNat ≤ 0x39) ∨ (0x61 ≤ b.toNat ∧ b.toNat ≤ 0x66))

/-! ### Host sessions -/

/-- R193, R172, R186: a CHECKSUM session over any reads of a healthy source, with any number of polls for each
command, returns OK with the hexadecimal digits of the SHA-256 of the bytes read. (That the reads and the numbers of
polls are lists is the model's choice, log entry 13.) -/
def Obligations.ChecksumSessionReturnsTheDigest : Prop :=
  ∀ (h : Session) (src : List SourceRead), h.ready → sourceFine src → (sourceBytes src).length < 2 ^ 61 →
    ∃ h', checksumSession true src h = .next (h', .ok (hexString (sha256 (sourceBytes src)))) ∧ h'.sink = h.sink

/-- R158, R191, R192: for every instance (AES256, or any other pair R146 admits, given as log entry 4 says), an ENCRYPT
session under a passphrase of at most 1024 bytes whose sink takes every write returns OK, and a DECRYPT session
under the same passphrase over any reads of the ciphertext it wrote returns OK and writes the original bytes. (The
lists of reads, polls and outcomes of the sink's writes, where sinkOk = [] stands for every write succeeding, are
the model's choice, log entry 13.) -/
def Obligations.DecryptSessionInvertsEncryptSession : Prop :=
  ∀ (h : Session) (pass : Bytes) (src : List SourceRead), h.ready →
    h.sinkOk = [] → pass.length ≤ 1024 → sourceFine src →
    ∃ h' c, encryptSession ⟨true, true, true⟩ pass src h = .next (h', .ok []) ∧ h'.sink = h.sink ++ c ∧
      c.length = 16 * ((sourceBytes src).length / 16 + 1) ∧
      ∀ src', sourceFine src' → sourceBytes src' = c → ∀ polls',
        ∃ h'', decryptSession ⟨true, true, true⟩ pass src' ⟨h'.engine, polls', [], []⟩ = .next (h'', .ok []) ∧
          h''.sink = sourceBytes src

/-- R189, R200, R202: cmd(word), for any 32-bit word, on a ready host and an engine that meets the invariants: with u the
state the completion leaves, it returns OK with u's output where ERRCODE is 0, and otherwise FAIL(KIND, CODE) after a
CLEAR, so that STATE is UNINIT; a word that decodes to BADCMD gives FAIL(1, 0x02), one that decodes to BADLEN FAIL(1,
0x03). The host is ready again and its sink as before. (The list of polls is the model's choice, log entry 13.) -/
def Obligations.CommandResultFollowsTheErrorCode : Prop :=
  ∀ (h : Session) (w : Word), h.ready → h.engine.Inv →
    ∃ u h' r, engineStep (busAccess (.write h.engine.cfg.base 4 w) h.engine) = .next u ∧
      hostCmdWord w h = .next (h', r) ∧ h'.ready ∧ h'.sink = h.sink ∧
      (u.errcode = 0 → r = .ok u.output ∧ h'.engine.fsm = u.fsm) ∧
      (u.errcode ≠ 0 → r = .fail u.errKind.toNat u.errByte.toNat ∧ h'.engine.fsm = .uninit) ∧
      (decode w = .badcmd → r = .fail 1 0x02) ∧ (decode w = .badlen → r = .fail 1 0x03)
end

