-- ==== Sys2Proof/Laws/Bytes.lean ====
section
/-! SUPPORT. Laws of byte strings: registers and strings, XOR, cutting into blocks, and the lengths of packed words. -/

namespace Sys2Proof.Machine

theorem fit_toList {n : Nat} {l : Bytes} (h : l.length = n) : (fit n l).toList = l := by
  subst h; simp [fit, Vector.toList]

theorem toList_fit {n : Nat} (v : Vector Byte n) : fit n v.toList = v := by
  apply Vector.toList_inj.mp
  exact fit_toList (by simp)

theorem fit_toList_take {n : Nat} (l : Bytes) (h : n ≤ l.length) : (fit n l).toList = l.take n := by
  simp [fit, Vector.toList, List.take_append_of_le_length h]

theorem fit_take {n : Nat} (l : Bytes) (h : n ≤ l.length) : fit n (l.take n) = fit n l := by
  apply Vector.toList_inj.mp
  rw [fit_toList_take l h, fit_toList (by simp [h])]

theorem zeros_toList (n : Nat) : (zeros n).toList = List.replicate n 0 := by
  simp [zeros]

theorem xorBytes_length {a b : Bytes} (h : a.length = b.length) : (xorBytes a b).length = a.length := by
  simp [xorBytes, h]

theorem xorBlock_toList (a b : Block) : (xorBlock a b).toList = xorBytes a.toList b.toList :=
  fit_toList (by simp [xorBytes])

theorem xorBytes_xorBytes {a b : Bytes} (h : a.length = b.length) : xorBytes (xorBytes a b) b = a := by
  induction a generalizing b with
  | nil => cases b <;> simp_all [xorBytes]
  | cons x xs ih =>
    cases b with
    | nil => simp at h
    | cons y ys =>
      simp only [List.length_cons, Nat.add_right_cancel_iff] at h
      have := ih h
      simp only [xorBytes] at this ⊢
      simp [this]

theorem xorBlock_xorBlock (a b : Block) : xorBlock (xorBlock a b) b = a := by
  apply Vector.toList_inj.mp
  rw [xorBlock_toList, xorBlock_toList, xorBytes_xorBytes (by simp)]

theorem splitBlocks_length (size k : Nat) (t : Bytes) : (splitBlocks size k t).length = k := by
  induction k generalizing t with
  | zero => rfl
  | succ k ih => simp [splitBlocks, ih]

theorem splitBlocks_flatten (size k : Nat) (t : Bytes) : (splitBlocks size k t).flatten = t.take (size * k) := by
  induction k generalizing t with
  | zero => simp [splitBlocks]
  | succ k ih =>
    rw [splitBlocks, List.flatten_cons, ih, Nat.mul_succ, Nat.add_comm, List.take_add]

theorem splitBlocks_append (size j k : Nat) (t : Bytes) :
    splitBlocks size (j + k) t = splitBlocks size j t ++ splitBlocks size k (t.drop (size * j)) := by
  induction j generalizing t with
  | zero => simp [splitBlocks]
  | succ j ih =>
    rw [Nat.add_right_comm, splitBlocks, ih, splitBlocks, List.drop_drop, Nat.mul_succ, Nat.add_comm size]
    rfl

theorem splitBlocks_take (size k : Nat) (t u : Bytes) (h : size * k ≤ t.length) :
    splitBlocks size k (t ++ u) = splitBlocks size k t := by
  induction k generalizing t with
  | zero => rfl
  | succ k ih =>
    have h1 : size ≤ t.length := by rw [Nat.mul_succ] at h; omega
    rw [splitBlocks, splitBlocks, List.take_append_of_le_length h1, List.drop_append_of_le_length h1, ih]
    simp [Nat.mul_succ] at h ⊢; omega

theorem toBE32_length (w : Word) : (toBE32 w).length = 4 := rfl
theorem toBE64_length (w : BitVec 64) : (toBE64 w).length = 8 := rfl
theorem hashBytes_length (h : HashWords) : (hashBytes h).length = 32 := rfl
theorem sha256_length (m : Bytes) : (sha256 m).length = 32 := rfl

end Sys2Proof.Machine
end

