-- ==== Sys2Proof/Laws/Cipher.lean ====
section
/-! SUPPORT. R146's law for the block ciphers given as data: each is a pair of inverse permutations for every key, and every
such pair is given by some list of exchanges. -/

namespace Sys2Proof.Machine

/-- An exchange made twice is none. -/
theorem swapUnder_twice (k : Key) (x : Block) (w : BlockSwap) : swapUnder k (swapUnder k x w) w = x := by
  unfold swapUnder
  split_ifs <;> simp_all

theorem custom_append (a b : List BlockSwap) (k : Key) (x : Block) :
    blockEncrypt (.custom (a ++ b)) k x = blockEncrypt (.custom b) k (blockEncrypt (.custom a) k x) := by
  simp [blockEncrypt]

/-- R146: D inverts E for every cipher given as data. -/
theorem cipherLawful_custom (swaps : List BlockSwap) : cipherLawful (.custom swaps) := by
  intro k x
  induction swaps generalizing x with
  | nil => rfl
  | cons w ws ih =>
    have h := ih (swapUnder k x w)
    simp only [blockEncrypt, blockDecrypt] at h ⊢
    simp [List.foldl_append, h, swapUnder_twice]

/-- R146: E inverts D too, so both are permutations of the blocks. -/
theorem custom_encrypt_decrypt (swaps : List BlockSwap) (k : Key) (y : Block) :
    blockEncrypt (.custom swaps) k (blockDecrypt (.custom swaps) k y) = y := by
  have h := cipherLawful_custom swaps.reverse k y
  simpa [blockEncrypt, blockDecrypt] using h

theorem bytes_finite (n : Nat) : Finite (Vector Byte n) := by
  have hb : Finite Byte := Finite.of_injective BitVec.toFin fun a b h => BitVec.eq_of_toFin_eq h
  refine Finite.of_injective (fun (v : Vector Byte n) (i : Fin n) => v[i]) fun a b h => Vector.ext fun i hi => ?_
  exact congrFun h ⟨i, hi⟩

/-- Exchanges under another key change nothing. -/
theorem custom_other_key {swaps : List BlockSwap} {k k' : Key} (h : ∀ w ∈ swaps, w.key = k') (hk : k' ≠ k) (x : Block) :
    blockEncrypt (.custom swaps) k x = x := by
  induction swaps generalizing x with
  | nil => rfl
  | cons w ws ih =>
    have hw : swapUnder k x w = x := by simp [swapUnder, h w (by simp), hk]
    have := ih (fun v hv => h v (by simp [hv])) x
    simpa [blockEncrypt, hw] using this

/-- For one key, every permutation of the blocks is made by some exchanges. -/
theorem swaps_for_key (k : Key) (p : Equiv.Perm Block) :
    ∃ swaps : List BlockSwap, (∀ w ∈ swaps, w.key = k) ∧ ∀ x, blockEncrypt (.custom swaps) k x = p x := by
  have := bytes_finite 16
  induction p using Equiv.Perm.swap_induction_on with
  | one => exact ⟨[], by simp, fun _ => rfl⟩
  | swap_mul f a b _ ih =>
    obtain ⟨ws, hk, hw⟩ := ih
    refine ⟨ws ++ [⟨k, a, b⟩], by simpa [or_imp, forall_and] using hk, fun x => ?_⟩
    rw [custom_append, hw]
    simp [blockEncrypt, swapUnder, Equiv.swap_apply_def]

/-- For a list of keys, every keyed permutation is made by some exchanges. -/
theorem swaps_for_keys (p : Key → Equiv.Perm Block) (keys : List Key) (hn : keys.Nodup) :
    ∃ swaps : List BlockSwap, ∀ k x, blockEncrypt (.custom swaps) k x = if k ∈ keys then p k x else x := by
  induction keys with
  | nil => exact ⟨[], by simp [blockEncrypt]⟩
  | cons k0 ks ih =>
    obtain ⟨hk0, hks⟩ := List.nodup_cons.mp hn
    obtain ⟨ws, hw⟩ := ih hks
    obtain ⟨vs, hv, he⟩ := swaps_for_key k0 (p k0)
    refine ⟨vs ++ ws, fun k x => ?_⟩
    rw [custom_append, hw]
    by_cases h : k = k0
    · subst h; simp [hk0, he]
    · simp [h, custom_other_key hv (Ne.symm h)]

/-- R8, R146: every pair (E, D) with D(K, E(K, x)) = x is the cipher of some instance. -/
theorem every_pair_is_a_cipher (e d : Key → Block → Block) (hed : ∀ k x, d k (e k x) = x) :
    ∃ swaps : List BlockSwap, ∀ k x,
      blockEncrypt (.custom swaps) k x = e k x ∧ blockDecrypt (.custom swaps) k x = d k x := by
  have hblocks := bytes_finite 16
  have hkeys := bytes_finite 32
  have hinj (k : Key) : Function.Injective (e k) := fun x y h => by rw [← hed k x, h, hed]
  have hbij (k : Key) : Function.Bijective (e k) := Finite.injective_iff_bijective.mp (hinj k)
  obtain ⟨keys, hn, hall⟩ : ∃ keys : List Key, keys.Nodup ∧ ∀ k, k ∈ keys := by
    have := Fintype.ofFinite Key
    exact ⟨Finset.univ.toList, Finset.nodup_toList _, by simp⟩
  obtain ⟨ws, hw⟩ := swaps_for_keys (fun k => Equiv.ofBijective (e k) (hbij k)) keys hn
  have he (k : Key) (x : Block) : blockEncrypt (.custom ws) k x = e k x := by simp [hw, hall]
  refine ⟨ws, fun k y => ⟨he k y, ?_⟩⟩
  obtain ⟨x, rfl⟩ := (hbij k).2 y
  rw [hed, ← he, cipherLawful_custom]

end Sys2Proof.Machine
end

