-- ==== Sys2Proof/Laws/Memory.lean ====
section
/-! SUPPORT. Laws of the window's storage: a read after a write, and the canonical form every write keeps. -/

namespace Sys2Proof.Machine

theorem read_append (m n : Memory) (a : Nat) :
    Memory.read (m ++ n) a = (Memory.read m a).or (Memory.read n a) := by
  induction m with
  | nil => rfl
  | cons c m ih =>
    obtain ⟨b, v⟩ := c
    by_cases h : b = a <;> simp [Memory.read, h, ih]

theorem read_filter (p : Nat → Bool) (m : Memory) (a : Nat) :
    Memory.read (m.filter fun c => p c.1) a = if p a then Memory.read m a else none := by
  induction m with
  | nil => simp [Memory.read]
  | cons c m ih =>
    obtain ⟨b, v⟩ := c
    by_cases hp : p b <;> by_cases h : b = a <;> simp_all [Memory.read]

theorem read_cellsFrom (a : Nat) (vs : Bytes) (b : Nat) :
    Memory.read (cellsFrom a vs) b = if a ≤ b then vs[b - a]? else none := by
  induction vs generalizing a with
  | nil => simp [cellsFrom, Memory.read]
  | cons v vs ih =>
    simp only [cellsFrom, Memory.read, ih]
    by_cases h : a = b
    · simp [h]
    · by_cases h2 : a + 1 ≤ b
      · have : b - a = (b - (a + 1)) + 1 := by omega
        simp [h, h2, this, Nat.le_of_succ_le h2]
      · have : ¬ a ≤ b := by omega
        simp [h, h2, this]

theorem read_writeBytes (m : Memory) (a : Nat) (vs : Bytes) (b : Nat) :
    (m.writeBytes a vs).read b = if a ≤ b ∧ b < a + vs.length then vs[b - a]? else m.read b := by
  unfold Memory.writeBytes
  split
  · have : ¬ (a ≤ b ∧ b < a + vs.length) := by omega
    simp [this]
  · rw [read_append, read_append, read_filter (fun x => decide (x < a)), read_filter (fun x => decide (a + vs.length ≤ x)), read_cellsFrom]
    by_cases h1 : b < a
    · have h2 : ¬ a ≤ b := by omega
      have h3 : ¬ a + vs.length ≤ b := by omega
      simp [h1, h2, h3]
    · by_cases h3 : b < a + vs.length
      · have h2 : a ≤ b := by omega
        have h4 : ¬ a + vs.length ≤ b := by omega
        simp [h1, h2, h3, h4]
      · have h2 : a ≤ b := by omega
        have h4 : a + vs.length ≤ b := by omega
        have : vs.length ≤ b - a := by omega
        simp [h1, h2, h3, h4, List.getElem?_eq_none this]

theorem risingFrom_mono {a b : Nat} (h : a ≤ b) {m : Memory} (hm : risingFrom b m = true) : risingFrom a m = true := by
  cases m with
  | nil => rfl
  | cons c m => obtain ⟨x, v⟩ := c; simp [risingFrom] at hm ⊢; exact ⟨by omega, hm.2⟩

theorem risingFrom_append {a b : Nat} {m n : Memory} (hm : risingFrom a m = true) (hb : ∀ c ∈ m, c.1 < b)
    (hn : risingFrom b n = true) (hab : a ≤ b) : risingFrom a (m ++ n) = true := by
  induction m generalizing a with
  | nil => exact risingFrom_mono hab hn
  | cons c m ih =>
    obtain ⟨x, v⟩ := c
    simp [risingFrom] at hm ⊢
    have := hb (x, v) (by simp)
    exact ⟨hm.1, ih hm.2 (fun c hc => hb c (by simp [hc])) this⟩

theorem risingFrom_filter {a : Nat} {m : Memory} (p : Host.Cell → Bool) (hm : risingFrom a m = true) :
    risingFrom a (m.filter p) = true := by
  induction m generalizing a with
  | nil => rfl
  | cons c m ih =>
    obtain ⟨x, v⟩ := c
    simp [risingFrom] at hm
    by_cases h : p (x, v)
    · simp [h, risingFrom, hm.1, ih hm.2]
    · simp [h]
      exact risingFrom_mono (by omega) (ih hm.2)

theorem risingFrom_filter_ge {a b : Nat} {m : Memory} (hm : risingFrom a m = true) :
    risingFrom b (m.filter fun c => b ≤ c.1) = true := by
  induction m generalizing a with
  | nil => rfl
  | cons c m ih =>
    obtain ⟨x, v⟩ := c
    simp [risingFrom] at hm
    by_cases h : b ≤ x
    · simp only [h, decide_true, List.filter_cons_of_pos, risingFrom, Bool.true_and]
      exact risingFrom_filter _ hm.2
    · simp [h]; simpa using ih hm.2

theorem risingFrom_cells (a : Nat) (vs : Bytes) : risingFrom a (cellsFrom a vs) = true := by
  induction vs generalizing a with
  | nil => rfl
  | cons v vs ih => simp [cellsFrom, risingFrom, ih]

theorem cellsFrom_lt (a : Nat) (vs : Bytes) : ∀ c ∈ cellsFrom a vs, a ≤ c.1 ∧ c.1 < a + vs.length := by
  induction vs generalizing a with
  | nil => simp [cellsFrom]
  | cons v vs ih =>
    intro c hc
    simp only [cellsFrom, List.mem_cons] at hc
    rcases hc with rfl | hc
    · simp
    · have := ih _ c hc; simp only [List.length_cons]; omega

theorem wf_writeBytes {m : Memory} {a : Nat} {vs : Bytes} (hm : m.wf = true) (h1 : dataInOffset ≤ a)
    (h2 : a + vs.length ≤ bufferEnd) : (m.writeBytes a vs).wf = true := by
  unfold Memory.writeBytes
  split
  · exact hm
  · simp only [Memory.wf, Bool.and_eq_true, List.all_eq_true, decide_eq_true_eq] at hm ⊢
    refine ⟨?_, ?_⟩
    · rw [List.append_assoc]
      refine risingFrom_append (b := a) (risingFrom_filter _ hm.1) (by simp) ?_ h1
      exact risingFrom_append (b := a + vs.length) (risingFrom_cells a vs) (fun c hc => (cellsFrom_lt a vs c hc).2)
        (risingFrom_filter_ge hm.1) (by omega)
    · intro c hc
      simp only [List.mem_append, List.mem_filter] at hc
      rcases hc with (hc | hc) | hc
      · exact hm.2 c hc.1
      · have := (cellsFrom_lt a vs c hc).2; omega
      · exact hm.2 c hc.1

/-- R45: after reset the storage lists nothing, which is canonical. -/
theorem wf_resetOf (c : Config) : (State.resetOf c).mem.wf = true := rfl

theorem wf_reset : State.reset.mem.wf = true := rfl

end Sys2Proof.Machine
end

