-- ==== Sys2Proof/Laws/State.lean ====
section
/-! SUPPORT. One lemma a field for each named update of the state: what the field holds after it. -/

namespace Sys2Proof.Machine

/-! ### accept -/

@[simp] theorem accept_cfg (w : Word) (s : State) : (accept w s).cfg = s.cfg := rfl
@[simp] theorem accept_busy (w : Word) (s : State) : (accept w s).busy = true := rfl
@[simp] theorem accept_lcmd (w : Word) (s : State) : (accept w s).lcmd = w := rfl
@[simp] theorem accept_ldata (w : Word) (s : State) : (accept w s).ldata = s.dataIn := rfl
@[simp] theorem accept_fsm (w : Word) (s : State) : (accept w s).fsm = s.fsm := rfl
@[simp] theorem accept_keyv (w : Word) (s : State) : (accept w s).keyv = s.keyv := rfl
@[simp] theorem accept_key (w : Word) (s : State) : (accept w s).key = s.key := rfl
@[simp] theorem accept_iv (w : Word) (s : State) : (accept w s).iv = s.iv := rfl
@[simp] theorem accept_cdir (w : Word) (s : State) : (accept w s).cdir = s.cdir := rfl
@[simp] theorem accept_ckey (w : Word) (s : State) : (accept w s).ckey = s.ckey := rfl
@[simp] theorem accept_cv (w : Word) (s : State) : (accept w s).cv = s.cv := rfl
@[simp] theorem accept_cbuf (w : Word) (s : State) : (accept w s).cbuf = s.cbuf := rfl
@[simp] theorem accept_held (w : Word) (s : State) : (accept w s).held = s.held := rfl
@[simp] theorem accept_heldv (w : Word) (s : State) : (accept w s).heldv = s.heldv := rfl
@[simp] theorem accept_hs (w : Word) (s : State) : (accept w s).hs = s.hs := rfl
@[simp] theorem accept_hlen (w : Word) (s : State) : (accept w s).hlen = s.hlen := rfl
@[simp] theorem accept_hbuf (w : Word) (s : State) : (accept w s).hbuf = s.hbuf := rfl
@[simp] theorem accept_digest (w : Word) (s : State) : (accept w s).digest = s.digest := rfl
@[simp] theorem accept_cmdOvr (w : Word) (s : State) : (accept w s).cmdOvr = s.cmdOvr := rfl
@[simp] theorem accept_errcode (w : Word) (s : State) : (accept w s).errcode = 0 := rfl
@[simp] theorem accept_outLen (w : Word) (s : State) : (accept w s).outLen = 0 := rfl
@[simp] theorem accept_mem (w : Word) (s : State) : (accept w s).mem = s.mem := rfl
@[simp] theorem accept_inReset (w : Word) (s : State) : (accept w s).inReset = s.inReset := rfl
@[simp] theorem accept_turns (w : Word) (s : State) : (accept w s).turns = s.turns := rfl
@[simp] theorem accept_resp (w : Word) (s : State) : (accept w s).resp = s.resp := rfl
@[simp] theorem accept_draws (w : Word) (s : State) : (accept w s).draws = s.draws := rfl
@[simp] theorem accept_epoch (w : Word) (s : State) : (accept w s).epoch = s.epoch := rfl

/-! ### dropCommand -/

@[simp] theorem dropCommand_cfg (s : State) : (dropCommand s).cfg = s.cfg := rfl
@[simp] theorem dropCommand_busy (s : State) : (dropCommand s).busy = s.busy := rfl
@[simp] theorem dropCommand_lcmd (s : State) : (dropCommand s).lcmd = s.lcmd := rfl
@[simp] theorem dropCommand_ldata (s : State) : (dropCommand s).ldata = s.ldata := rfl
@[simp] theorem dropCommand_fsm (s : State) : (dropCommand s).fsm = s.fsm := rfl
@[simp] theorem dropCommand_keyv (s : State) : (dropCommand s).keyv = s.keyv := rfl
@[simp] theorem dropCommand_key (s : State) : (dropCommand s).key = s.key := rfl
@[simp] theorem dropCommand_iv (s : State) : (dropCommand s).iv = s.iv := rfl
@[simp] theorem dropCommand_cdir (s : State) : (dropCommand s).cdir = s.cdir := rfl
@[simp] theorem dropCommand_ckey (s : State) : (dropCommand s).ckey = s.ckey := rfl
@[simp] theorem dropCommand_cv (s : State) : (dropCommand s).cv = s.cv := rfl
@[simp] theorem dropCommand_cbuf (s : State) : (dropCommand s).cbuf = s.cbuf := rfl
@[simp] theorem dropCommand_held (s : State) : (dropCommand s).held = s.held := rfl
@[simp] theorem dropCommand_heldv (s : State) : (dropCommand s).heldv = s.heldv := rfl
@[simp] theorem dropCommand_hs (s : State) : (dropCommand s).hs = s.hs := rfl
@[simp] theorem dropCommand_hlen (s : State) : (dropCommand s).hlen = s.hlen := rfl
@[simp] theorem dropCommand_hbuf (s : State) : (dropCommand s).hbuf = s.hbuf := rfl
@[simp] theorem dropCommand_digest (s : State) : (dropCommand s).digest = s.digest := rfl
@[simp] theorem dropCommand_cmdOvr (s : State) : (dropCommand s).cmdOvr = true := rfl
@[simp] theorem dropCommand_errcode (s : State) : (dropCommand s).errcode = s.errcode := rfl
@[simp] theorem dropCommand_outLen (s : State) : (dropCommand s).outLen = s.outLen := rfl
@[simp] theorem dropCommand_mem (s : State) : (dropCommand s).mem = s.mem := rfl
@[simp] theorem dropCommand_inReset (s : State) : (dropCommand s).inReset = s.inReset := rfl
@[simp] theorem dropCommand_turns (s : State) : (dropCommand s).turns = s.turns := rfl
@[simp] theorem dropCommand_resp (s : State) : (dropCommand s).resp = s.resp := rfl
@[simp] theorem dropCommand_draws (s : State) : (dropCommand s).draws = s.draws := rfl
@[simp] theorem dropCommand_epoch (s : State) : (dropCommand s).epoch = s.epoch := rfl

/-! ### complete -/

@[simp] theorem complete_cfg (c : ErrCode) (out : Bytes) (s : State) : (complete c out s).cfg = s.cfg := rfl
@[simp] theorem complete_busy (c : ErrCode) (out : Bytes) (s : State) : (complete c out s).busy = false := rfl
@[simp] theorem complete_lcmd (c : ErrCode) (out : Bytes) (s : State) : (complete c out s).lcmd = s.lcmd := rfl
@[simp] theorem complete_ldata (c : ErrCode) (out : Bytes) (s : State) : (complete c out s).ldata = s.ldata := rfl
@[simp] theorem complete_fsm (c : ErrCode) (out : Bytes) (s : State) : (complete c out s).fsm = s.fsm := rfl
@[simp] theorem complete_keyv (c : ErrCode) (out : Bytes) (s : State) : (complete c out s).keyv = s.keyv := rfl
@[simp] theorem complete_key (c : ErrCode) (out : Bytes) (s : State) : (complete c out s).key = s.key := rfl
@[simp] theorem complete_iv (c : ErrCode) (out : Bytes) (s : State) : (complete c out s).iv = s.iv := rfl
@[simp] theorem complete_cdir (c : ErrCode) (out : Bytes) (s : State) : (complete c out s).cdir = s.cdir := rfl
@[simp] theorem complete_ckey (c : ErrCode) (out : Bytes) (s : State) : (complete c out s).ckey = s.ckey := rfl
@[simp] theorem complete_cv (c : ErrCode) (out : Bytes) (s : State) : (complete c out s).cv = s.cv := rfl
@[simp] theorem complete_cbuf (c : ErrCode) (out : Bytes) (s : State) : (complete c out s).cbuf = s.cbuf := rfl
@[simp] theorem complete_held (c : ErrCode) (out : Bytes) (s : State) : (complete c out s).held = s.held := rfl
@[simp] theorem complete_heldv (c : ErrCode) (out : Bytes) (s : State) : (complete c out s).heldv = s.heldv := rfl
@[simp] theorem complete_hs (c : ErrCode) (out : Bytes) (s : State) : (complete c out s).hs = s.hs := rfl
@[simp] theorem complete_hlen (c : ErrCode) (out : Bytes) (s : State) : (complete c out s).hlen = s.hlen := rfl
@[simp] theorem complete_hbuf (c : ErrCode) (out : Bytes) (s : State) : (complete c out s).hbuf = s.hbuf := rfl
@[simp] theorem complete_digest (c : ErrCode) (out : Bytes) (s : State) : (complete c out s).digest = s.digest := rfl
@[simp] theorem complete_cmdOvr (c : ErrCode) (out : Bytes) (s : State) : (complete c out s).cmdOvr = s.cmdOvr := rfl
@[simp] theorem complete_errcode (c : ErrCode) (out : Bytes) (s : State) :
    (complete c out s).errcode = errWord c := rfl
@[simp] theorem complete_outLen (c : ErrCode) (out : Bytes) (s : State) :
    (complete c out s).outLen = BitVec.ofNat 11 out.length := rfl
@[simp] theorem complete_mem (c : ErrCode) (out : Bytes) (s : State) :
    (complete c out s).mem = s.mem.writeBytes dataOutOffset out := rfl
@[simp] theorem complete_inReset (c : ErrCode) (out : Bytes) (s : State) :
    (complete c out s).inReset = s.inReset := rfl
@[simp] theorem complete_turns (c : ErrCode) (out : Bytes) (s : State) : (complete c out s).turns = s.turns := rfl
@[simp] theorem complete_resp (c : ErrCode) (out : Bytes) (s : State) : (complete c out s).resp = s.resp := rfl
@[simp] theorem complete_draws (c : ErrCode) (out : Bytes) (s : State) : (complete c out s).draws = s.draws := rfl
@[simp] theorem complete_epoch (c : ErrCode) (out : Bytes) (s : State) : (complete c out s).epoch = s.epoch := rfl

/-! ### zeroizeCipher -/

@[simp] theorem zeroizeCipher_cfg (s : State) : (zeroizeCipher s).cfg = s.cfg := rfl
@[simp] theorem zeroizeCipher_busy (s : State) : (zeroizeCipher s).busy = s.busy := rfl
@[simp] theorem zeroizeCipher_lcmd (s : State) : (zeroizeCipher s).lcmd = s.lcmd := rfl
@[simp] theorem zeroizeCipher_ldata (s : State) : (zeroizeCipher s).ldata = s.ldata := rfl
@[simp] theorem zeroizeCipher_fsm (s : State) : (zeroizeCipher s).fsm = s.fsm := rfl
@[simp] theorem zeroizeCipher_keyv (s : State) : (zeroizeCipher s).keyv = s.keyv := rfl
@[simp] theorem zeroizeCipher_key (s : State) : (zeroizeCipher s).key = s.key := rfl
@[simp] theorem zeroizeCipher_iv (s : State) : (zeroizeCipher s).iv = s.iv := rfl
@[simp] theorem zeroizeCipher_cdir (s : State) : (zeroizeCipher s).cdir = s.cdir := rfl
@[simp] theorem zeroizeCipher_ckey (s : State) : (zeroizeCipher s).ckey = zeros 32 := rfl
@[simp] theorem zeroizeCipher_cv (s : State) : (zeroizeCipher s).cv = zeros 16 := rfl
@[simp] theorem zeroizeCipher_cbuf (s : State) : (zeroizeCipher s).cbuf = [] := rfl
@[simp] theorem zeroizeCipher_held (s : State) : (zeroizeCipher s).held = zeros 16 := rfl
@[simp] theorem zeroizeCipher_heldv (s : State) : (zeroizeCipher s).heldv = false := rfl
@[simp] theorem zeroizeCipher_hs (s : State) : (zeroizeCipher s).hs = s.hs := rfl
@[simp] theorem zeroizeCipher_hlen (s : State) : (zeroizeCipher s).hlen = s.hlen := rfl
@[simp] theorem zeroizeCipher_hbuf (s : State) : (zeroizeCipher s).hbuf = s.hbuf := rfl
@[simp] theorem zeroizeCipher_digest (s : State) : (zeroizeCipher s).digest = s.digest := rfl
@[simp] theorem zeroizeCipher_cmdOvr (s : State) : (zeroizeCipher s).cmdOvr = s.cmdOvr := rfl
@[simp] theorem zeroizeCipher_errcode (s : State) : (zeroizeCipher s).errcode = s.errcode := rfl
@[simp] theorem zeroizeCipher_outLen (s : State) : (zeroizeCipher s).outLen = s.outLen := rfl
@[simp] theorem zeroizeCipher_mem (s : State) : (zeroizeCipher s).mem = s.mem := rfl
@[simp] theorem zeroizeCipher_inReset (s : State) : (zeroizeCipher s).inReset = s.inReset := rfl
@[simp] theorem zeroizeCipher_turns (s : State) : (zeroizeCipher s).turns = s.turns := rfl
@[simp] theorem zeroizeCipher_resp (s : State) : (zeroizeCipher s).resp = s.resp := rfl
@[simp] theorem zeroizeCipher_draws (s : State) : (zeroizeCipher s).draws = s.draws := rfl
@[simp] theorem zeroizeCipher_epoch (s : State) : (zeroizeCipher s).epoch = s.epoch := rfl

/-! ### zeroizeHash -/

@[simp] theorem zeroizeHash_cfg (s : State) : (zeroizeHash s).cfg = s.cfg := rfl
@[simp] theorem zeroizeHash_busy (s : State) : (zeroizeHash s).busy = s.busy := rfl
@[simp] theorem zeroizeHash_lcmd (s : State) : (zeroizeHash s).lcmd = s.lcmd := rfl
@[simp] theorem zeroizeHash_ldata (s : State) : (zeroizeHash s).ldata = s.ldata := rfl
@[simp] theorem zeroizeHash_fsm (s : State) : (zeroizeHash s).fsm = s.fsm := rfl
@[simp] theorem zeroizeHash_keyv (s : State) : (zeroizeHash s).keyv = s.keyv := rfl
@[simp] theorem zeroizeHash_key (s : State) : (zeroizeHash s).key = s.key := rfl
@[simp] theorem zeroizeHash_iv (s : State) : (zeroizeHash s).iv = s.iv := rfl
@[simp] theorem zeroizeHash_cdir (s : State) : (zeroizeHash s).cdir = s.cdir := rfl
@[simp] theorem zeroizeHash_ckey (s : State) : (zeroizeHash s).ckey = s.ckey := rfl
@[simp] theorem zeroizeHash_cv (s : State) : (zeroizeHash s).cv = s.cv := rfl
@[simp] theorem zeroizeHash_cbuf (s : State) : (zeroizeHash s).cbuf = s.cbuf := rfl
@[simp] theorem zeroizeHash_held (s : State) : (zeroizeHash s).held = s.held := rfl
@[simp] theorem zeroizeHash_heldv (s : State) : (zeroizeHash s).heldv = s.heldv := rfl
@[simp] theorem zeroizeHash_hs (s : State) : (zeroizeHash s).hs = .zero := rfl
@[simp] theorem zeroizeHash_hlen (s : State) : (zeroizeHash s).hlen = 0 := rfl
@[simp] theorem zeroizeHash_hbuf (s : State) : (zeroizeHash s).hbuf = [] := rfl
@[simp] theorem zeroizeHash_digest (s : State) : (zeroizeHash s).digest = s.digest := rfl
@[simp] theorem zeroizeHash_cmdOvr (s : State) : (zeroizeHash s).cmdOvr = s.cmdOvr := rfl
@[simp] theorem zeroizeHash_errcode (s : State) : (zeroizeHash s).errcode = s.errcode := rfl
@[simp] theorem zeroizeHash_outLen (s : State) : (zeroizeHash s).outLen = s.outLen := rfl
@[simp] theorem zeroizeHash_mem (s : State) : (zeroizeHash s).mem = s.mem := rfl
@[simp] theorem zeroizeHash_inReset (s : State) : (zeroizeHash s).inReset = s.inReset := rfl
@[simp] theorem zeroizeHash_turns (s : State) : (zeroizeHash s).turns = s.turns := rfl
@[simp] theorem zeroizeHash_resp (s : State) : (zeroizeHash s).resp = s.resp := rfl
@[simp] theorem zeroizeHash_draws (s : State) : (zeroizeHash s).draws = s.draws := rfl
@[simp] theorem zeroizeHash_epoch (s : State) : (zeroizeHash s).epoch = s.epoch := rfl

/-! ### zeroizeKey -/

@[simp] theorem zeroizeKey_cfg (s : State) : (zeroizeKey s).cfg = s.cfg := rfl
@[simp] theorem zeroizeKey_busy (s : State) : (zeroizeKey s).busy = s.busy := rfl
@[simp] theorem zeroizeKey_lcmd (s : State) : (zeroizeKey s).lcmd = s.lcmd := rfl
@[simp] theorem zeroizeKey_ldata (s : State) : (zeroizeKey s).ldata = s.ldata := rfl
@[simp] theorem zeroizeKey_fsm (s : State) : (zeroizeKey s).fsm = s.fsm := rfl
@[simp] theorem zeroizeKey_keyv (s : State) : (zeroizeKey s).keyv = false := rfl
@[simp] theorem zeroizeKey_key (s : State) : (zeroizeKey s).key = zeros 32 := rfl
@[simp] theorem zeroizeKey_iv (s : State) : (zeroizeKey s).iv = zeros 16 := rfl
@[simp] theorem zeroizeKey_cdir (s : State) : (zeroizeKey s).cdir = s.cdir := rfl
@[simp] theorem zeroizeKey_ckey (s : State) : (zeroizeKey s).ckey = s.ckey := rfl
@[simp] theorem zeroizeKey_cv (s : State) : (zeroizeKey s).cv = s.cv := rfl
@[simp] theorem zeroizeKey_cbuf (s : State) : (zeroizeKey s).cbuf = s.cbuf := rfl
@[simp] theorem zeroizeKey_held (s : State) : (zeroizeKey s).held = s.held := rfl
@[simp] theorem zeroizeKey_heldv (s : State) : (zeroizeKey s).heldv = s.heldv := rfl
@[simp] theorem zeroizeKey_hs (s : State) : (zeroizeKey s).hs = s.hs := rfl
@[simp] theorem zeroizeKey_hlen (s : State) : (zeroizeKey s).hlen = s.hlen := rfl
@[simp] theorem zeroizeKey_hbuf (s : State) : (zeroizeKey s).hbuf = s.hbuf := rfl
@[simp] theorem zeroizeKey_digest (s : State) : (zeroizeKey s).digest = s.digest := rfl
@[simp] theorem zeroizeKey_cmdOvr (s : State) : (zeroizeKey s).cmdOvr = s.cmdOvr := rfl
@[simp] theorem zeroizeKey_errcode (s : State) : (zeroizeKey s).errcode = s.errcode := rfl
@[simp] theorem zeroizeKey_outLen (s : State) : (zeroizeKey s).outLen = s.outLen := rfl
@[simp] theorem zeroizeKey_mem (s : State) : (zeroizeKey s).mem = s.mem := rfl
@[simp] theorem zeroizeKey_inReset (s : State) : (zeroizeKey s).inReset = s.inReset := rfl
@[simp] theorem zeroizeKey_turns (s : State) : (zeroizeKey s).turns = s.turns := rfl
@[simp] theorem zeroizeKey_resp (s : State) : (zeroizeKey s).resp = s.resp := rfl
@[simp] theorem zeroizeKey_draws (s : State) : (zeroizeKey s).draws = s.draws := rfl
@[simp] theorem zeroizeKey_epoch (s : State) : (zeroizeKey s).epoch = s.epoch := rfl

/-! ### enterFault -/

@[simp] theorem enterFault_cfg (s : State) : (enterFault s).cfg = s.cfg := rfl
@[simp] theorem enterFault_busy (s : State) : (enterFault s).busy = s.busy := rfl
@[simp] theorem enterFault_lcmd (s : State) : (enterFault s).lcmd = s.lcmd := rfl
@[simp] theorem enterFault_ldata (s : State) : (enterFault s).ldata = s.ldata := rfl
@[simp] theorem enterFault_fsm (s : State) : (enterFault s).fsm = .fault := rfl
@[simp] theorem enterFault_keyv (s : State) : (enterFault s).keyv = false := rfl
@[simp] theorem enterFault_key (s : State) : (enterFault s).key = zeros 32 := rfl
@[simp] theorem enterFault_iv (s : State) : (enterFault s).iv = zeros 16 := rfl
@[simp] theorem enterFault_cdir (s : State) : (enterFault s).cdir = s.cdir := rfl
@[simp] theorem enterFault_ckey (s : State) : (enterFault s).ckey = zeros 32 := rfl
@[simp] theorem enterFault_cv (s : State) : (enterFault s).cv = zeros 16 := rfl
@[simp] theorem enterFault_cbuf (s : State) : (enterFault s).cbuf = [] := rfl
@[simp] theorem enterFault_held (s : State) : (enterFault s).held = zeros 16 := rfl
@[simp] theorem enterFault_heldv (s : State) : (enterFault s).heldv = false := rfl
@[simp] theorem enterFault_hs (s : State) : (enterFault s).hs = .zero := rfl
@[simp] theorem enterFault_hlen (s : State) : (enterFault s).hlen = 0 := rfl
@[simp] theorem enterFault_hbuf (s : State) : (enterFault s).hbuf = [] := rfl
@[simp] theorem enterFault_digest (s : State) : (enterFault s).digest = zeros 32 := rfl
@[simp] theorem enterFault_cmdOvr (s : State) : (enterFault s).cmdOvr = s.cmdOvr := rfl
@[simp] theorem enterFault_errcode (s : State) : (enterFault s).errcode = s.errcode := rfl
@[simp] theorem enterFault_outLen (s : State) : (enterFault s).outLen = s.outLen := rfl
@[simp] theorem enterFault_mem (s : State) : (enterFault s).mem = s.mem := rfl
@[simp] theorem enterFault_inReset (s : State) : (enterFault s).inReset = s.inReset := rfl
@[simp] theorem enterFault_turns (s : State) : (enterFault s).turns = s.turns := rfl
@[simp] theorem enterFault_resp (s : State) : (enterFault s).resp = s.resp := rfl
@[simp] theorem enterFault_draws (s : State) : (enterFault s).draws = s.draws := rfl
@[simp] theorem enterFault_epoch (s : State) : (enterFault s).epoch = s.epoch := rfl

/-! ### clearContexts -/

@[simp] theorem clearContexts_cfg (s : State) : (clearContexts s).cfg = s.cfg := rfl
@[simp] theorem clearContexts_busy (s : State) : (clearContexts s).busy = s.busy := rfl
@[simp] theorem clearContexts_lcmd (s : State) : (clearContexts s).lcmd = 0 := rfl
@[simp] theorem clearContexts_ldata (s : State) : (clearContexts s).ldata = zeros 1024 := rfl
@[simp] theorem clearContexts_fsm (s : State) : (clearContexts s).fsm = .uninit := rfl
@[simp] theorem clearContexts_keyv (s : State) : (clearContexts s).keyv = false := rfl
@[simp] theorem clearContexts_key (s : State) : (clearContexts s).key = zeros 32 := rfl
@[simp] theorem clearContexts_iv (s : State) : (clearContexts s).iv = zeros 16 := rfl
@[simp] theorem clearContexts_cdir (s : State) : (clearContexts s).cdir = false := rfl
@[simp] theorem clearContexts_ckey (s : State) : (clearContexts s).ckey = zeros 32 := rfl
@[simp] theorem clearContexts_cv (s : State) : (clearContexts s).cv = zeros 16 := rfl
@[simp] theorem clearContexts_cbuf (s : State) : (clearContexts s).cbuf = [] := rfl
@[simp] theorem clearContexts_held (s : State) : (clearContexts s).held = zeros 16 := rfl
@[simp] theorem clearContexts_heldv (s : State) : (clearContexts s).heldv = false := rfl
@[simp] theorem clearContexts_hs (s : State) : (clearContexts s).hs = .zero := rfl
@[simp] theorem clearContexts_hlen (s : State) : (clearContexts s).hlen = 0 := rfl
@[simp] theorem clearContexts_hbuf (s : State) : (clearContexts s).hbuf = [] := rfl
@[simp] theorem clearContexts_digest (s : State) : (clearContexts s).digest = zeros 32 := rfl
@[simp] theorem clearContexts_cmdOvr (s : State) : (clearContexts s).cmdOvr = false := rfl
@[simp] theorem clearContexts_errcode (s : State) : (clearContexts s).errcode = s.errcode := rfl
@[simp] theorem clearContexts_outLen (s : State) : (clearContexts s).outLen = s.outLen := rfl
@[simp] theorem clearContexts_mem (s : State) : (clearContexts s).mem = s.mem := rfl
@[simp] theorem clearContexts_inReset (s : State) : (clearContexts s).inReset = s.inReset := rfl
@[simp] theorem clearContexts_turns (s : State) : (clearContexts s).turns = s.turns := rfl
@[simp] theorem clearContexts_resp (s : State) : (clearContexts s).resp = s.resp := rfl
@[simp] theorem clearContexts_draws (s : State) : (clearContexts s).draws = s.draws := rfl
@[simp] theorem clearContexts_epoch (s : State) : (clearContexts s).epoch = s.epoch := rfl

/-! ### applyReset -/

@[simp] theorem applyReset_cfg (a : Bool) (s : State) : (applyReset a s).cfg = s.cfg := rfl
@[simp] theorem applyReset_busy (a : Bool) (s : State) : (applyReset a s).busy = false := rfl
@[simp] theorem applyReset_lcmd (a : Bool) (s : State) : (applyReset a s).lcmd = 0 := rfl
@[simp] theorem applyReset_ldata (a : Bool) (s : State) : (applyReset a s).ldata = Vector.replicate 1024 0 := rfl
@[simp] theorem applyReset_fsm (a : Bool) (s : State) : (applyReset a s).fsm = .uninit := rfl
@[simp] theorem applyReset_keyv (a : Bool) (s : State) : (applyReset a s).keyv = false := rfl
@[simp] theorem applyReset_key (a : Bool) (s : State) : (applyReset a s).key = Vector.replicate 32 0 := rfl
@[simp] theorem applyReset_iv (a : Bool) (s : State) : (applyReset a s).iv = Vector.replicate 16 0 := rfl
@[simp] theorem applyReset_cdir (a : Bool) (s : State) : (applyReset a s).cdir = false := rfl
@[simp] theorem applyReset_ckey (a : Bool) (s : State) : (applyReset a s).ckey = Vector.replicate 32 0 := rfl
@[simp] theorem applyReset_cv (a : Bool) (s : State) : (applyReset a s).cv = Vector.replicate 16 0 := rfl
@[simp] theorem applyReset_cbuf (a : Bool) (s : State) : (applyReset a s).cbuf = [] := rfl
@[simp] theorem applyReset_held (a : Bool) (s : State) : (applyReset a s).held = Vector.replicate 16 0 := rfl
@[simp] theorem applyReset_heldv (a : Bool) (s : State) : (applyReset a s).heldv = false := rfl
@[simp] theorem applyReset_hs (a : Bool) (s : State) : (applyReset a s).hs = .zero := rfl
@[simp] theorem applyReset_hlen (a : Bool) (s : State) : (applyReset a s).hlen = 0 := rfl
@[simp] theorem applyReset_hbuf (a : Bool) (s : State) : (applyReset a s).hbuf = [] := rfl
@[simp] theorem applyReset_digest (a : Bool) (s : State) : (applyReset a s).digest = Vector.replicate 32 0 := rfl
@[simp] theorem applyReset_cmdOvr (a : Bool) (s : State) : (applyReset a s).cmdOvr = false := rfl
@[simp] theorem applyReset_errcode (a : Bool) (s : State) : (applyReset a s).errcode = 0 := rfl
@[simp] theorem applyReset_outLen (a : Bool) (s : State) : (applyReset a s).outLen = 0 := rfl
@[simp] theorem applyReset_mem (a : Bool) (s : State) : (applyReset a s).mem = [] := rfl
@[simp] theorem applyReset_inReset (a : Bool) (s : State) : (applyReset a s).inReset = a := rfl
@[simp] theorem applyReset_turns (a : Bool) (s : State) : (applyReset a s).turns = s.turns := rfl
@[simp] theorem applyReset_resp (a : Bool) (s : State) : (applyReset a s).resp = none := rfl
@[simp] theorem applyReset_draws (a : Bool) (s : State) : (applyReset a s).draws = s.draws := rfl
@[simp] theorem applyReset_epoch (a : Bool) (s : State) : (applyReset a s).epoch = s.epoch + 1 := rfl

/-! ### derive -/

@[simp] theorem derive_cfg (n : BitVec 11) (s : State) : (derive n s).cfg = s.cfg := rfl
@[simp] theorem derive_busy (n : BitVec 11) (s : State) : (derive n s).busy = s.busy := rfl
@[simp] theorem derive_lcmd (n : BitVec 11) (s : State) : (derive n s).lcmd = s.lcmd := rfl
@[simp] theorem derive_ldata (n : BitVec 11) (s : State) :
    (derive n s).ldata = fit 1024 (List.replicate n.toNat 0 ++ s.ldata.toList.drop n.toNat) := rfl
@[simp] theorem derive_fsm (n : BitVec 11) (s : State) : (derive n s).fsm = s.fsm := rfl
@[simp] theorem derive_keyv (n : BitVec 11) (s : State) : (derive n s).keyv = true := rfl
@[simp] theorem derive_key (n : BitVec 11) (s : State) : (derive n s).key = derivedKey s.cfg (s.operand n) := rfl
@[simp] theorem derive_iv (n : BitVec 11) (s : State) : (derive n s).iv = derivedIv s.cfg (s.operand n) := rfl
@[simp] theorem derive_cdir (n : BitVec 11) (s : State) : (derive n s).cdir = s.cdir := rfl
@[simp] theorem derive_ckey (n : BitVec 11) (s : State) : (derive n s).ckey = s.ckey := rfl
@[simp] theorem derive_cv (n : BitVec 11) (s : State) : (derive n s).cv = s.cv := rfl
@[simp] theorem derive_cbuf (n : BitVec 11) (s : State) : (derive n s).cbuf = s.cbuf := rfl
@[simp] theorem derive_held (n : BitVec 11) (s : State) : (derive n s).held = s.held := rfl
@[simp] theorem derive_heldv (n : BitVec 11) (s : State) : (derive n s).heldv = s.heldv := rfl
@[simp] theorem derive_hs (n : BitVec 11) (s : State) : (derive n s).hs = s.hs := rfl
@[simp] theorem derive_hlen (n : BitVec 11) (s : State) : (derive n s).hlen = s.hlen := rfl
@[simp] theorem derive_hbuf (n : BitVec 11) (s : State) : (derive n s).hbuf = s.hbuf := rfl
@[simp] theorem derive_digest (n : BitVec 11) (s : State) : (derive n s).digest = s.digest := rfl
@[simp] theorem derive_cmdOvr (n : BitVec 11) (s : State) : (derive n s).cmdOvr = s.cmdOvr := rfl
@[simp] theorem derive_errcode (n : BitVec 11) (s : State) : (derive n s).errcode = s.errcode := rfl
@[simp] theorem derive_outLen (n : BitVec 11) (s : State) : (derive n s).outLen = s.outLen := rfl
@[simp] theorem derive_mem (n : BitVec 11) (s : State) : (derive n s).mem = s.mem := rfl
@[simp] theorem derive_inReset (n : BitVec 11) (s : State) : (derive n s).inReset = s.inReset := rfl
@[simp] theorem derive_turns (n : BitVec 11) (s : State) : (derive n s).turns = s.turns := rfl
@[simp] theorem derive_resp (n : BitVec 11) (s : State) : (derive n s).resp = s.resp := rfl
@[simp] theorem derive_draws (n : BitVec 11) (s : State) : (derive n s).draws = s.draws := rfl
@[simp] theorem derive_epoch (n : BitVec 11) (s : State) : (derive n s).epoch = s.epoch := rfl

/-! ### bindCipher -/

@[simp] theorem bindCipher_cfg (d : Bool) (s : State) : (bindCipher d s).cfg = s.cfg := rfl
@[simp] theorem bindCipher_busy (d : Bool) (s : State) : (bindCipher d s).busy = s.busy := rfl
@[simp] theorem bindCipher_lcmd (d : Bool) (s : State) : (bindCipher d s).lcmd = s.lcmd := rfl
@[simp] theorem bindCipher_ldata (d : Bool) (s : State) : (bindCipher d s).ldata = s.ldata := rfl
@[simp] theorem bindCipher_fsm (d : Bool) (s : State) : (bindCipher d s).fsm = .cInit := rfl
@[simp] theorem bindCipher_keyv (d : Bool) (s : State) : (bindCipher d s).keyv = false := rfl
@[simp] theorem bindCipher_key (d : Bool) (s : State) : (bindCipher d s).key = zeros 32 := rfl
@[simp] theorem bindCipher_iv (d : Bool) (s : State) : (bindCipher d s).iv = zeros 16 := rfl
@[simp] theorem bindCipher_cdir (d : Bool) (s : State) : (bindCipher d s).cdir = d := rfl
@[simp] theorem bindCipher_ckey (d : Bool) (s : State) : (bindCipher d s).ckey = s.key := rfl
@[simp] theorem bindCipher_cv (d : Bool) (s : State) : (bindCipher d s).cv = s.iv := rfl
@[simp] theorem bindCipher_cbuf (d : Bool) (s : State) : (bindCipher d s).cbuf = [] := rfl
@[simp] theorem bindCipher_held (d : Bool) (s : State) : (bindCipher d s).held = zeros 16 := rfl
@[simp] theorem bindCipher_heldv (d : Bool) (s : State) : (bindCipher d s).heldv = false := rfl
@[simp] theorem bindCipher_hs (d : Bool) (s : State) : (bindCipher d s).hs = .zero := rfl
@[simp] theorem bindCipher_hlen (d : Bool) (s : State) : (bindCipher d s).hlen = 0 := rfl
@[simp] theorem bindCipher_hbuf (d : Bool) (s : State) : (bindCipher d s).hbuf = [] := rfl
@[simp] theorem bindCipher_digest (d : Bool) (s : State) : (bindCipher d s).digest = zeros 32 := rfl
@[simp] theorem bindCipher_cmdOvr (d : Bool) (s : State) : (bindCipher d s).cmdOvr = s.cmdOvr := rfl
@[simp] theorem bindCipher_errcode (d : Bool) (s : State) : (bindCipher d s).errcode = s.errcode := rfl
@[simp] theorem bindCipher_outLen (d : Bool) (s : State) : (bindCipher d s).outLen = s.outLen := rfl
@[simp] theorem bindCipher_mem (d : Bool) (s : State) : (bindCipher d s).mem = s.mem := rfl
@[simp] theorem bindCipher_inReset (d : Bool) (s : State) : (bindCipher d s).inReset = s.inReset := rfl
@[simp] theorem bindCipher_turns (d : Bool) (s : State) : (bindCipher d s).turns = s.turns := rfl
@[simp] theorem bindCipher_resp (d : Bool) (s : State) : (bindCipher d s).resp = s.resp := rfl
@[simp] theorem bindCipher_draws (d : Bool) (s : State) : (bindCipher d s).draws = s.draws := rfl
@[simp] theorem bindCipher_epoch (d : Bool) (s : State) : (bindCipher d s).epoch = s.epoch := rfl

/-! ### advanceStream -/

@[simp] theorem advanceStream_cfg (x : CipherStream) (s : State) : (advanceStream x s).cfg = s.cfg := rfl
@[simp] theorem advanceStream_busy (x : CipherStream) (s : State) : (advanceStream x s).busy = s.busy := rfl
@[simp] theorem advanceStream_lcmd (x : CipherStream) (s : State) : (advanceStream x s).lcmd = s.lcmd := rfl
@[simp] theorem advanceStream_ldata (x : CipherStream) (s : State) : (advanceStream x s).ldata = s.ldata := rfl
@[simp] theorem advanceStream_fsm (x : CipherStream) (s : State) : (advanceStream x s).fsm = .cStream := rfl
@[simp] theorem advanceStream_keyv (x : CipherStream) (s : State) : (advanceStream x s).keyv = s.keyv := rfl
@[simp] theorem advanceStream_key (x : CipherStream) (s : State) : (advanceStream x s).key = s.key := rfl
@[simp] theorem advanceStream_iv (x : CipherStream) (s : State) : (advanceStream x s).iv = s.iv := rfl
@[simp] theorem advanceStream_cdir (x : CipherStream) (s : State) : (advanceStream x s).cdir = s.cdir := rfl
@[simp] theorem advanceStream_ckey (x : CipherStream) (s : State) : (advanceStream x s).ckey = s.ckey := rfl
@[simp] theorem advanceStream_cv (x : CipherStream) (s : State) : (advanceStream x s).cv = x.cv := rfl
@[simp] theorem advanceStream_cbuf (x : CipherStream) (s : State) : (advanceStream x s).cbuf = x.cbuf := rfl
@[simp] theorem advanceStream_held (x : CipherStream) (s : State) : (advanceStream x s).held = x.held := rfl
@[simp] theorem advanceStream_heldv (x : CipherStream) (s : State) : (advanceStream x s).heldv = x.heldv := rfl
@[simp] theorem advanceStream_hs (x : CipherStream) (s : State) : (advanceStream x s).hs = s.hs := rfl
@[simp] theorem advanceStream_hlen (x : CipherStream) (s : State) : (advanceStream x s).hlen = s.hlen := rfl
@[simp] theorem advanceStream_hbuf (x : CipherStream) (s : State) : (advanceStream x s).hbuf = s.hbuf := rfl
@[simp] theorem advanceStream_digest (x : CipherStream) (s : State) : (advanceStream x s).digest = s.digest := rfl
@[simp] theorem advanceStream_cmdOvr (x : CipherStream) (s : State) : (advanceStream x s).cmdOvr = s.cmdOvr := rfl
@[simp] theorem advanceStream_errcode (x : CipherStream) (s : State) : (advanceStream x s).errcode = s.errcode := rfl
@[simp] theorem advanceStream_outLen (x : CipherStream) (s : State) : (advanceStream x s).outLen = s.outLen := rfl
@[simp] theorem advanceStream_mem (x : CipherStream) (s : State) : (advanceStream x s).mem = s.mem := rfl
@[simp] theorem advanceStream_inReset (x : CipherStream) (s : State) : (advanceStream x s).inReset = s.inReset := rfl
@[simp] theorem advanceStream_turns (x : CipherStream) (s : State) : (advanceStream x s).turns = s.turns := rfl
@[simp] theorem advanceStream_resp (x : CipherStream) (s : State) : (advanceStream x s).resp = s.resp := rfl
@[simp] theorem advanceStream_draws (x : CipherStream) (s : State) : (advanceStream x s).draws = s.draws := rfl
@[simp] theorem advanceStream_epoch (x : CipherStream) (s : State) : (advanceStream x s).epoch = s.epoch := rfl

/-! ### closeCipher -/

@[simp] theorem closeCipher_cfg (s : State) : (closeCipher s).cfg = s.cfg := rfl
@[simp] theorem closeCipher_busy (s : State) : (closeCipher s).busy = s.busy := rfl
@[simp] theorem closeCipher_lcmd (s : State) : (closeCipher s).lcmd = s.lcmd := rfl
@[simp] theorem closeCipher_ldata (s : State) : (closeCipher s).ldata = s.ldata := rfl
@[simp] theorem closeCipher_fsm (s : State) : (closeCipher s).fsm = .cFinal := rfl
@[simp] theorem closeCipher_keyv (s : State) : (closeCipher s).keyv = s.keyv := rfl
@[simp] theorem closeCipher_key (s : State) : (closeCipher s).key = s.key := rfl
@[simp] theorem closeCipher_iv (s : State) : (closeCipher s).iv = s.iv := rfl
@[simp] theorem closeCipher_cdir (s : State) : (closeCipher s).cdir = s.cdir := rfl
@[simp] theorem closeCipher_ckey (s : State) : (closeCipher s).ckey = zeros 32 := rfl
@[simp] theorem closeCipher_cv (s : State) : (closeCipher s).cv = zeros 16 := rfl
@[simp] theorem closeCipher_cbuf (s : State) : (closeCipher s).cbuf = [] := rfl
@[simp] theorem closeCipher_held (s : State) : (closeCipher s).held = zeros 16 := rfl
@[simp] theorem closeCipher_heldv (s : State) : (closeCipher s).heldv = false := rfl
@[simp] theorem closeCipher_hs (s : State) : (closeCipher s).hs = s.hs := rfl
@[simp] theorem closeCipher_hlen (s : State) : (closeCipher s).hlen = s.hlen := rfl
@[simp] theorem closeCipher_hbuf (s : State) : (closeCipher s).hbuf = s.hbuf := rfl
@[simp] theorem closeCipher_digest (s : State) : (closeCipher s).digest = s.digest := rfl
@[simp] theorem closeCipher_cmdOvr (s : State) : (closeCipher s).cmdOvr = s.cmdOvr := rfl
@[simp] theorem closeCipher_errcode (s : State) : (closeCipher s).errcode = s.errcode := rfl
@[simp] theorem closeCipher_outLen (s : State) : (closeCipher s).outLen = s.outLen := rfl
@[simp] theorem closeCipher_mem (s : State) : (closeCipher s).mem = s.mem := rfl
@[simp] theorem closeCipher_inReset (s : State) : (closeCipher s).inReset = s.inReset := rfl
@[simp] theorem closeCipher_turns (s : State) : (closeCipher s).turns = s.turns := rfl
@[simp] theorem closeCipher_resp (s : State) : (closeCipher s).resp = s.resp := rfl
@[simp] theorem closeCipher_draws (s : State) : (closeCipher s).draws = s.draws := rfl
@[simp] theorem closeCipher_epoch (s : State) : (closeCipher s).epoch = s.epoch := rfl

/-! ### bindDigest -/

@[simp] theorem bindDigest_cfg (s : State) : (bindDigest s).cfg = s.cfg := rfl
@[simp] theorem bindDigest_busy (s : State) : (bindDigest s).busy = s.busy := rfl
@[simp] theorem bindDigest_lcmd (s : State) : (bindDigest s).lcmd = s.lcmd := rfl
@[simp] theorem bindDigest_ldata (s : State) : (bindDigest s).ldata = s.ldata := rfl
@[simp] theorem bindDigest_fsm (s : State) : (bindDigest s).fsm = .dInit := rfl
@[simp] theorem bindDigest_keyv (s : State) : (bindDigest s).keyv = s.keyv := rfl
@[simp] theorem bindDigest_key (s : State) : (bindDigest s).key = s.key := rfl
@[simp] theorem bindDigest_iv (s : State) : (bindDigest s).iv = s.iv := rfl
@[simp] theorem bindDigest_cdir (s : State) : (bindDigest s).cdir = false := rfl
@[simp] theorem bindDigest_ckey (s : State) : (bindDigest s).ckey = zeros 32 := rfl
@[simp] theorem bindDigest_cv (s : State) : (bindDigest s).cv = zeros 16 := rfl
@[simp] theorem bindDigest_cbuf (s : State) : (bindDigest s).cbuf = [] := rfl
@[simp] theorem bindDigest_held (s : State) : (bindDigest s).held = zeros 16 := rfl
@[simp] theorem bindDigest_heldv (s : State) : (bindDigest s).heldv = false := rfl
@[simp] theorem bindDigest_hs (s : State) : (bindDigest s).hs = shaH0 := rfl
@[simp] theorem bindDigest_hlen (s : State) : (bindDigest s).hlen = 0 := rfl
@[simp] theorem bindDigest_hbuf (s : State) : (bindDigest s).hbuf = [] := rfl
@[simp] theorem bindDigest_digest (s : State) : (bindDigest s).digest = zeros 32 := rfl
@[simp] theorem bindDigest_cmdOvr (s : State) : (bindDigest s).cmdOvr = s.cmdOvr := rfl
@[simp] theorem bindDigest_errcode (s : State) : (bindDigest s).errcode = s.errcode := rfl
@[simp] theorem bindDigest_outLen (s : State) : (bindDigest s).outLen = s.outLen := rfl
@[simp] theorem bindDigest_mem (s : State) : (bindDigest s).mem = s.mem := rfl
@[simp] theorem bindDigest_inReset (s : State) : (bindDigest s).inReset = s.inReset := rfl
@[simp] theorem bindDigest_turns (s : State) : (bindDigest s).turns = s.turns := rfl
@[simp] theorem bindDigest_resp (s : State) : (bindDigest s).resp = s.resp := rfl
@[simp] theorem bindDigest_draws (s : State) : (bindDigest s).draws = s.draws := rfl
@[simp] theorem bindDigest_epoch (s : State) : (bindDigest s).epoch = s.epoch := rfl

/-! ### absorb -/

@[simp] theorem absorb_cfg (d : Bytes) (s : State) : (absorb d s).cfg = s.cfg := rfl
@[simp] theorem absorb_busy (d : Bytes) (s : State) : (absorb d s).busy = s.busy := rfl
@[simp] theorem absorb_lcmd (d : Bytes) (s : State) : (absorb d s).lcmd = s.lcmd := rfl
@[simp] theorem absorb_ldata (d : Bytes) (s : State) : (absorb d s).ldata = s.ldata := rfl
@[simp] theorem absorb_fsm (d : Bytes) (s : State) : (absorb d s).fsm = .dAccum := rfl
@[simp] theorem absorb_keyv (d : Bytes) (s : State) : (absorb d s).keyv = s.keyv := rfl
@[simp] theorem absorb_key (d : Bytes) (s : State) : (absorb d s).key = s.key := rfl
@[simp] theorem absorb_iv (d : Bytes) (s : State) : (absorb d s).iv = s.iv := rfl
@[simp] theorem absorb_cdir (d : Bytes) (s : State) : (absorb d s).cdir = s.cdir := rfl
@[simp] theorem absorb_ckey (d : Bytes) (s : State) : (absorb d s).ckey = s.ckey := rfl
@[simp] theorem absorb_cv (d : Bytes) (s : State) : (absorb d s).cv = s.cv := rfl
@[simp] theorem absorb_cbuf (d : Bytes) (s : State) : (absorb d s).cbuf = s.cbuf := rfl
@[simp] theorem absorb_held (d : Bytes) (s : State) : (absorb d s).held = s.held := rfl
@[simp] theorem absorb_heldv (d : Bytes) (s : State) : (absorb d s).heldv = s.heldv := rfl
@[simp] theorem absorb_hs (d : Bytes) (s : State) : (absorb d s).hs = compressAll s.hs (s.hbuf ++ d) := rfl
@[simp] theorem absorb_hlen (d : Bytes) (s : State) : (absorb d s).hlen = s.hlen + BitVec.ofNat 61 d.length := rfl
@[simp] theorem absorb_hbuf (d : Bytes) (s : State) :
    (absorb d s).hbuf = (s.hbuf ++ d).drop (64 * ((s.hbuf ++ d).length / 64)) := rfl
@[simp] theorem absorb_digest (d : Bytes) (s : State) : (absorb d s).digest = s.digest := rfl
@[simp] theorem absorb_cmdOvr (d : Bytes) (s : State) : (absorb d s).cmdOvr = s.cmdOvr := rfl
@[simp] theorem absorb_errcode (d : Bytes) (s : State) : (absorb d s).errcode = s.errcode := rfl
@[simp] theorem absorb_outLen (d : Bytes) (s : State) : (absorb d s).outLen = s.outLen := rfl
@[simp] theorem absorb_mem (d : Bytes) (s : State) : (absorb d s).mem = s.mem := rfl
@[simp] theorem absorb_inReset (d : Bytes) (s : State) : (absorb d s).inReset = s.inReset := rfl
@[simp] theorem absorb_turns (d : Bytes) (s : State) : (absorb d s).turns = s.turns := rfl
@[simp] theorem absorb_resp (d : Bytes) (s : State) : (absorb d s).resp = s.resp := rfl
@[simp] theorem absorb_draws (d : Bytes) (s : State) : (absorb d s).draws = s.draws := rfl
@[simp] theorem absorb_epoch (d : Bytes) (s : State) : (absorb d s).epoch = s.epoch := rfl

/-! ### closeDigest -/

@[simp] theorem closeDigest_cfg (s : State) : (closeDigest s).cfg = s.cfg := rfl
@[simp] theorem closeDigest_busy (s : State) : (closeDigest s).busy = s.busy := rfl
@[simp] theorem closeDigest_lcmd (s : State) : (closeDigest s).lcmd = s.lcmd := rfl
@[simp] theorem closeDigest_ldata (s : State) : (closeDigest s).ldata = s.ldata := rfl
@[simp] theorem closeDigest_fsm (s : State) : (closeDigest s).fsm = .dFinal := rfl
@[simp] theorem closeDigest_keyv (s : State) : (closeDigest s).keyv = s.keyv := rfl
@[simp] theorem closeDigest_key (s : State) : (closeDigest s).key = s.key := rfl
@[simp] theorem closeDigest_iv (s : State) : (closeDigest s).iv = s.iv := rfl
@[simp] theorem closeDigest_cdir (s : State) : (closeDigest s).cdir = s.cdir := rfl
@[simp] theorem closeDigest_ckey (s : State) : (closeDigest s).ckey = s.ckey := rfl
@[simp] theorem closeDigest_cv (s : State) : (closeDigest s).cv = s.cv := rfl
@[simp] theorem closeDigest_cbuf (s : State) : (closeDigest s).cbuf = s.cbuf := rfl
@[simp] theorem closeDigest_held (s : State) : (closeDigest s).held = s.held := rfl
@[simp] theorem closeDigest_heldv (s : State) : (closeDigest s).heldv = s.heldv := rfl
@[simp] theorem closeDigest_hs (s : State) : (closeDigest s).hs = .zero := rfl
@[simp] theorem closeDigest_hlen (s : State) : (closeDigest s).hlen = 0 := rfl
@[simp] theorem closeDigest_hbuf (s : State) : (closeDigest s).hbuf = [] := rfl
@[simp] theorem closeDigest_digest (s : State) : (closeDigest s).digest = fit 32 s.finalDigest := rfl
@[simp] theorem closeDigest_cmdOvr (s : State) : (closeDigest s).cmdOvr = s.cmdOvr := rfl
@[simp] theorem closeDigest_errcode (s : State) : (closeDigest s).errcode = s.errcode := rfl
@[simp] theorem closeDigest_outLen (s : State) : (closeDigest s).outLen = s.outLen := rfl
@[simp] theorem closeDigest_mem (s : State) : (closeDigest s).mem = s.mem := rfl
@[simp] theorem closeDigest_inReset (s : State) : (closeDigest s).inReset = s.inReset := rfl
@[simp] theorem closeDigest_turns (s : State) : (closeDigest s).turns = s.turns := rfl
@[simp] theorem closeDigest_resp (s : State) : (closeDigest s).resp = s.resp := rfl
@[simp] theorem closeDigest_draws (s : State) : (closeDigest s).draws = s.draws := rfl
@[simp] theorem closeDigest_epoch (s : State) : (closeDigest s).epoch = s.epoch := rfl

/-! ### given -/

@[simp] theorem given_cfg (d : Bytes) (s : State) : (s.given d).cfg = s.cfg := rfl
@[simp] theorem given_busy (d : Bytes) (s : State) : (s.given d).busy = s.busy := rfl
@[simp] theorem given_lcmd (d : Bytes) (s : State) : (s.given d).lcmd = s.lcmd := rfl
@[simp] theorem given_ldata (d : Bytes) (s : State) :
    (s.given d).ldata = fit 1024 (d ++ s.ldata.toList.drop d.length) := rfl
@[simp] theorem given_fsm (d : Bytes) (s : State) : (s.given d).fsm = s.fsm := rfl
@[simp] theorem given_keyv (d : Bytes) (s : State) : (s.given d).keyv = s.keyv := rfl
@[simp] theorem given_key (d : Bytes) (s : State) : (s.given d).key = s.key := rfl
@[simp] theorem given_iv (d : Bytes) (s : State) : (s.given d).iv = s.iv := rfl
@[simp] theorem given_cdir (d : Bytes) (s : State) : (s.given d).cdir = s.cdir := rfl
@[simp] theorem given_ckey (d : Bytes) (s : State) : (s.given d).ckey = s.ckey := rfl
@[simp] theorem given_cv (d : Bytes) (s : State) : (s.given d).cv = s.cv := rfl
@[simp] theorem given_cbuf (d : Bytes) (s : State) : (s.given d).cbuf = s.cbuf := rfl
@[simp] theorem given_held (d : Bytes) (s : State) : (s.given d).held = s.held := rfl
@[simp] theorem given_heldv (d : Bytes) (s : State) : (s.given d).heldv = s.heldv := rfl
@[simp] theorem given_hs (d : Bytes) (s : State) : (s.given d).hs = s.hs := rfl
@[simp] theorem given_hlen (d : Bytes) (s : State) : (s.given d).hlen = s.hlen := rfl
@[simp] theorem given_hbuf (d : Bytes) (s : State) : (s.given d).hbuf = s.hbuf := rfl
@[simp] theorem given_digest (d : Bytes) (s : State) : (s.given d).digest = s.digest := rfl
@[simp] theorem given_cmdOvr (d : Bytes) (s : State) : (s.given d).cmdOvr = s.cmdOvr := rfl
@[simp] theorem given_errcode (d : Bytes) (s : State) : (s.given d).errcode = s.errcode := rfl
@[simp] theorem given_outLen (d : Bytes) (s : State) : (s.given d).outLen = s.outLen := rfl
@[simp] theorem given_mem (d : Bytes) (s : State) : (s.given d).mem = s.mem := rfl
@[simp] theorem given_inReset (d : Bytes) (s : State) : (s.given d).inReset = s.inReset := rfl
@[simp] theorem given_turns (d : Bytes) (s : State) : (s.given d).turns = s.turns := rfl
@[simp] theorem given_resp (d : Bytes) (s : State) : (s.given d).resp = s.resp := rfl
@[simp] theorem given_draws (d : Bytes) (s : State) : (s.given d).draws = s.draws := rfl
@[simp] theorem given_epoch (d : Bytes) (s : State) : (s.given d).epoch = s.epoch := rfl

end Sys2Proof.Machine
end

