-- ==== Sys2Proof/Laws/Exec.lean ====
section
/-! SUPPORT. What each shared operation of the machine can do, said once: a command's completion, the checks before
it, the meaning of each command, a bus access, and the step. Later proofs cite these and unfold nothing. -/

namespace Sys2Proof.Machine

/-! ### Completion -/

@[simp] theorem errWord_eq (c : ErrCode) :
    errWord c = match c with
      | .none => 0x000 | .seq => 0x101 | .badcmd => 0x102 | .badlen => 0x103 | .kdfFail => 0x210
      | .initFail => 0x211 | .updateFail => 0x212 | .finalLen => 0x213 | .finalPad => 0x214 := by
  cases c <;> rfl

theorem writeBytes_nil (m : Memory) (a : Nat) : m.writeBytes a [] = m := rfl

/-- A completion without output changes ERRCODE, OUT_LEN and BUSY. -/
theorem complete_nil (c : ErrCode) (s : State) :
    complete c [] s = { s with outLen := 0, errcode := errWord c, busy := false } := rfl

/-- DATA_OUT after a completion. -/
theorem complete_dataOutByte (c : ErrCode) (out : Bytes) (s : State) (j : Nat) :
    (complete c out s).dataOutByte j = if j < out.length then out[j]? else s.dataOutByte j := by
  simp only [State.dataOutByte, complete_mem, read_writeBytes]
  by_cases h : j < out.length <;> simp [h]

/-- The window outside a completion's output. -/
theorem complete_read_outside (c : ErrCode) (out : Bytes) (s : State) (a : Nat)
    (h : a < dataOutOffset ∨ dataOutOffset + out.length ≤ a) :
    (complete c out s).mem.read a = s.mem.read a := by
  rw [complete_mem, read_writeBytes, if_neg (by omega)]

/-- A completion with an output as long as OUT_LEN can say, seen as `Emitted` sees it. -/
theorem complete_emitted (out : Bytes) (s r : State) (h : r.mem = s.mem) :
    Emitted s (complete .none out r) out := by
  refine ⟨fun j hj => ?_, fun a ha => ?_, rfl, rfl, rfl⟩
  · rw [complete_dataOutByte, if_pos hj]
  · rw [complete_read_outside _ _ _ _ ha, h]

/-- The canonical form through a completion whose output fits DATA_OUT. -/
theorem complete_wf (c : ErrCode) (out : Bytes) (s : State) (hm : s.mem.wf = true) (ho : out.length ≤ 1024) :
    (complete c out s).mem.wf = true :=
  wf_writeBytes hm (by decide) (by simp only [dataOutOffset, bufferEnd]; omega)

/-! ### Legality -/

/-- The state sets of the dispatch are those of the state table (R94). -/
theorem idle_eq_legalIn (n : BitVec 11) (d : Bool) (f : Fsm) :
    f.idle = legalIn (.kdf n) f ∧ f.idle = legalIn (.cipherInit d) f ∧ f.idle = legalIn .digestInit f := by
  cases f <;> exact ⟨rfl, rfl, rfl⟩

theorem inCipher_eq_legalIn (n : BitVec 11) (f : Fsm) :
    f.inCipher = legalIn (.cipherUpdate n) f ∧ f.inCipher = legalIn .cipherFinal f := by
  cases f <;> exact ⟨rfl, rfl⟩

theorem inDigest_eq_legalIn (n : BitVec 11) (f : Fsm) :
    f.inDigest = legalIn (.digestUpdate n) f ∧ f.inDigest = legalIn .digestFinal f := by
  cases f <;> exact ⟨rfl, rfl⟩

theorem digestReady_eq_legalIn (f : Fsm) : f.digestReady = legalIn .hex f := by
  cases f <;> rfl

/-- The three ways through the checks. -/
theorem checked_cases {a b : Bool} {s t : State} {rule : State → Host.Outcome State Fault Refusal}
    (h : checked a b s rule = .next t) :
    (a = false ∧ t = complete .badlen [] s) ∨ (a = true ∧ b = false ∧ t = complete .seq [] s) ∨
      (a = true ∧ b = true ∧ rule s = .next t) := by
  unfold checked at h
  cases a <;> cases b <;> simp_all [preconditionError]

/-! ### The meanings -/

theorem execClear_eq (s : State) : execClear s = .next (complete .none [] (clearContexts s)) := rfl

theorem execKdf_cases {n : BitVec 11} {s t : State} (h : execKdf n s = .next t) :
    (t = complete .badlen [] s ∨ t = complete .seq [] s) ∨
      (lenLegal n = true ∧ s.fsm.idle = true ∧ t = complete .none [] (derive n s)) := by
  rcases checked_cases h with ⟨-, h⟩ | ⟨-, -, h⟩ | ⟨h1, h2, h⟩
  · exact .inl (.inl h)
  · exact .inl (.inr h)
  · cases h; exact .inr ⟨h1, h2, rfl⟩

theorem execCipherInit_cases {d : Bool} {s t : State} (h : execCipherInit d s = .next t) :
    t = complete .seq [] s ∨
      (s.fsm.idle = true ∧ s.keyv = true ∧ t = complete .none [] (bindCipher d s)) ∨
      (s.fsm.idle = true ∧ s.keyv = false ∧ t = complete .initFail [] (enterFault s)) := by
  rcases checked_cases h with ⟨h, -⟩ | ⟨-, -, h⟩ | ⟨-, h2, h⟩
  · cases h
  · exact .inl h
  · cases hk : s.keyv <;> rw [hk] at h <;> cases h
    · exact .inr (.inr ⟨h2, rfl, rfl⟩)
    · exact .inr (.inl ⟨h2, rfl, rfl⟩)

theorem execCipherUpdate_cases {n : BitVec 11} {s t : State} (h : execCipherUpdate n s = .next t) :
    (t = complete .badlen [] s ∨ t = complete .seq [] s) ∨
      (s.fsm.inCipher = true ∧ n = 0 ∧ t = complete .none [] { s with fsm := .cStream }) ∨
      (lenLegal n = true ∧ s.fsm.inCipher = true ∧ n ≠ 0 ∧
        t = complete .none (s.update (s.operand n)).2 (advanceStream (s.update (s.operand n)).1 s)) := by
  rcases checked_cases h with ⟨-, h⟩ | ⟨-, -, h⟩ | ⟨h1, h2, h⟩
  · exact .inl (.inl h)
  · exact .inl (.inr h)
  · by_cases hn : n = 0
    · rw [if_pos hn] at h; cases h; exact .inr (.inl ⟨h2, hn, rfl⟩)
    · rw [if_neg hn] at h; cases h; exact .inr (.inr ⟨h1, h2, hn, rfl⟩)

theorem execCipherFinal_cases {s t : State} (h : execCipherFinal s = .next t) :
    t = complete .seq [] s ∨
      (s.fsm.inCipher = true ∧ s.cdir = true ∧
        t = complete .none (encFinal s.enc s.stream) (closeCipher s)) ∨
      (s.fsm.inCipher = true ∧ s.cdir = false ∧ (s.cbuf.length ≠ 0 ∨ s.heldv = false) ∧
        t = complete .finalLen [] (enterFault s)) ∨
      (s.fsm.inCipher = true ∧ s.cdir = false ∧ s.cbuf = [] ∧ s.heldv = true ∧ padValid s.held.toList = true ∧
        t = complete .none (padStrip s.held.toList) (closeCipher s)) ∨
      (s.fsm.inCipher = true ∧ s.cdir = false ∧ s.cbuf = [] ∧ s.heldv = true ∧ padValid s.held.toList = false ∧
        t = complete .finalPad [] (enterFault s)) := by
  rcases checked_cases h with ⟨h, -⟩ | ⟨-, -, h⟩ | ⟨-, h2, h⟩
  · cases h
  · exact .inl h
  · refine .inr ?_
    cases hd : s.cdir <;> simp only [hd, Bool.false_eq_true, if_false, if_true] at h
    · by_cases hc : s.cbuf.length ≠ 0 ∨ s.heldv = false
      · rw [if_pos hc] at h; cases h; exact .inr (.inl ⟨h2, rfl, hc, rfl⟩)
      · rw [if_neg hc] at h
        have hb : s.cbuf = [] := by
          by_contra hne; exact hc (.inl fun h0 => hne (List.length_eq_zero_iff.mp h0))
        have hv : s.heldv = true := by
          cases hv : s.heldv
          · exact absurd (.inr hv) hc
          · rfl
        cases hp : padValid s.held.toList <;> simp only [hp, Bool.false_eq_true, if_false, if_true] at h <;> cases h
        · exact .inr (.inr (.inr ⟨h2, rfl, hb, hv, rfl, rfl⟩))
        · exact .inr (.inr (.inl ⟨h2, rfl, hb, hv, rfl, rfl⟩))
    · cases h; exact .inl ⟨h2, rfl, rfl⟩

theorem execDigestInit_cases {s t : State} (h : execDigestInit s = .next t) :
    t = complete .seq [] s ∨ (s.fsm.idle = true ∧ t = complete .none [] (bindDigest s)) := by
  rcases checked_cases h with ⟨h, -⟩ | ⟨-, -, h⟩ | ⟨-, h2, h⟩
  · cases h
  · exact .inl h
  · cases h; exact .inr ⟨h2, rfl⟩

theorem execDigestUpdate_cases {n : BitVec 11} {s t : State} (h : execDigestUpdate n s = .next t) :
    (t = complete .badlen [] s ∨ t = complete .seq [] s) ∨
      (lenLegal n = true ∧ s.fsm.inDigest = true ∧ t = complete .none [] (absorb (s.operand n) s)) := by
  rcases checked_cases h with ⟨-, h⟩ | ⟨-, -, h⟩ | ⟨h1, h2, h⟩
  · exact .inl (.inl h)
  · exact .inl (.inr h)
  · cases h; exact .inr ⟨h1, h2, rfl⟩

theorem execDigestFinal_cases {s t : State} (h : execDigestFinal s = .next t) :
    t = complete .seq [] s ∨
      (s.fsm.inDigest = true ∧ t = complete .none s.finalDigest (closeDigest s)) := by
  rcases checked_cases h with ⟨h, -⟩ | ⟨-, -, h⟩ | ⟨-, h2, h⟩
  · cases h
  · exact .inl h
  · cases h; exact .inr ⟨h2, rfl⟩

theorem execHex_cases {s t : State} (h : execHex s = .next t) :
    t = complete .seq [] s ∨ (s.fsm = .dFinal ∧ t = complete .none (hexString s.digest.toList) s) := by
  rcases checked_cases h with ⟨h, -⟩ | ⟨-, -, h⟩ | ⟨-, h2, h⟩
  · cases h
  · exact .inl h
  · cases h; exact .inr ⟨by simpa [Fsm.digestReady] using h2, rfl⟩

/-! ### The engine's step, a bus access, a turn -/

theorem engineStep_idle {s : State} (h : s.busy = false) : engineStep s = .next s := by
  simp [engineStep, h]

theorem engineStep_command {s : State} {i : Instr} (hb : s.busy = true) (hd : decode s.lcmd = .command i) :
    engineStep s = exec i s := by
  simp [engineStep, hb, hd]

/-- What the engine's step can do. -/
theorem engineStep_cases {s t : State} (h : engineStep s = .next t) :
    (s.busy = false ∧ t = s) ∨ (s.busy = true ∧ t = complete .badcmd [] s) ∨
      (s.busy = true ∧ t = complete .badlen [] s) ∨
      ∃ i, s.busy = true ∧ decode s.lcmd = .command i ∧ exec i s = .next t := by
  unfold engineStep at h
  cases hb : s.busy <;> simp only [hb, Bool.false_eq_true, if_false, if_true] at h
  · cases h; exact .inl ⟨rfl, rfl⟩
  · refine .inr ?_
    cases hd : decode s.lcmd <;> rw [hd] at h
    · cases h; exact .inl ⟨rfl, rfl⟩
    · cases h; exact .inr (.inl ⟨rfl, rfl⟩)
    · exact .inr (.inr ⟨_, rfl, rfl, h⟩)

theorem windowOffset_base (c : Config) {off : Nat} (h : off < windowBytes) :
    windowOffset c (c.base + off) = some off := by
  simp at h; simp [windowOffset, h]

theorem windowOffset_lt {c : Config} {addr off : Nat} (h : windowOffset c addr = some off) :
    addr = c.base + off ∧ off < windowBytes := by
  simp [windowOffset] at h ⊢; omega

/-- A legal access has one of three sizes. -/
theorem accessLegal_size {off n : Nat} (h : accessLegal off n = true) : n = 1 ∨ n = 2 ∨ n = 4 := by
  unfold accessLegal at h
  split at h
  · simp at h; exact .inr (.inr h.1)
  · simp at h; omega

/-- A legal access to the buffer region stays in its half. -/
theorem accessLegal_inside {off n k : Nat} (h : accessLegal off n = true) (h0 : 0x400 ≤ off) (hk : 0x400 ∣ k)
    (hoff : off < k) : off + n ≤ k := by
  have h1 : n = 1 ∨ (n = 2 ∧ off % 2 = 0) ∨ (n = 4 ∧ off % 4 = 0) := by
    unfold accessLegal at h
    rw [if_neg (by simp; omega)] at h
    simpa [or_assoc] using h
  obtain ⟨q, rfl⟩ := hk
  omega

@[simp] theorem lanes_length (v : Word) (n : Nat) : (lanes v n).length = n := by simp [lanes]

/-- What a write in the window can do. -/
theorem writeWindow_cases (off n : Nat) (v : Word) (s : State) :
    writeWindow off n v s = s ∨
      (off = 0 ∧ s.busy = true ∧ writeWindow off n v s = dropCommand s) ∨
      (off = 0 ∧ s.busy = false ∧ writeWindow off n v s = accept v s) ∨
      (0x400 ≤ off ∧ off < 0x800 ∧
        writeWindow off n v s = { s with mem := s.mem.writeBytes off (lanes v n) }) := by
  by_cases h0 : off = 0
  · subst h0
    cases hb : s.busy
    · exact .inr (.inr (.inl ⟨rfl, rfl, by simp [writeWindow, regionOf, hb]⟩))
    · exact .inr (.inl ⟨rfl, rfl, by simp [writeWindow, regionOf, hb]⟩)
  · by_cases h1 : 0x400 ≤ off ∧ off < 0x800
    · have : regionOf off = .dataIn := by
        simp [regionOf, show ¬ off < 0x10 by omega, show ¬ off < 0x400 by omega, h1.2]
      exact .inr (.inr (.inr ⟨h1.1, h1.2, by simp [writeWindow, this]⟩))
    · left
      have : regionOf off ≠ .dataIn := by
        simp only [regionOf, dataInOffset, dataOutOffset, bufferEnd]
        split_ifs <;> first | omega | simp
      unfold writeWindow
      split <;> simp_all

/-- What a bus access can do: give a response (and count drawn bytes), or write in the window out of reset. -/
theorem busAccess_cases (a : Access) (s : State) :
    (∃ r d, busAccess a s = { s with resp := r, draws := d }) ∨
      (∃ addr off n v r, a = .write addr n v ∧ windowOffset s.cfg addr = some off ∧ s.inReset = false ∧
        accessLegal off n = true ∧ busAccess a s = { writeWindow off n v s with resp := r }) := by
  cases a with
  | read addr n =>
    left
    simp only [busAccess]
    split
    · exact ⟨_, _, rfl⟩
    · split
      · exact ⟨_, _, rfl⟩
      · split <;> exact ⟨_, _, rfl⟩
  | write addr n v =>
    simp only [busAccess]
    split
    · exact .inl ⟨_, _, rfl⟩
    · rename_i off ho
      cases hr : s.inReset
      · simp only [Bool.false_eq_true, if_false]
        split
        · rename_i hl
          exact .inr ⟨addr, off, n, v, _, rfl, ho, trivial, hl, rfl⟩
        · exact .inl ⟨_, _, rfl⟩
      · exact .inl ⟨_, _, rfl⟩

/-- What one step can do. -/
theorem step_cases {s t : State} (h : step s = .next t) :
    (s.turns = [] ∧ engineStep s = .next t) ∨
      (∃ ts, s.turns = .engine :: ts ∧ engineStep { s with turns := ts } = .next t) ∨
      (∃ a ts, s.turns = .host a :: ts ∧ t = busAccess a { s with turns := ts }) ∨
      (∃ ts, s.turns = .resetAssert :: ts ∧ t = applyReset true { s with turns := ts }) ∨
      (∃ ts, s.turns = .resetRelease :: ts ∧ s.inReset = true ∧ t = applyReset false { s with turns := ts }) ∨
      (∃ ts, s.turns = .resetRelease :: ts ∧ s.inReset = false ∧ t = { s with turns := ts }) := by
  unfold step stepTurns at h
  cases hts : s.turns with
  | nil => rw [hts] at h; exact .inl ⟨rfl, h⟩
  | cons u ts =>
    rw [hts] at h
    cases u with
    | engine => exact .inr (.inl ⟨ts, rfl, h⟩)
    | host a => cases h; exact .inr (.inr (.inl ⟨a, ts, rfl, rfl⟩))
    | resetAssert => cases h; exact .inr (.inr (.inr (.inl ⟨ts, rfl, rfl⟩)))
    | resetRelease =>
      simp only [takeTurn, releaseReset, Host.Outcome.next.injEq] at h
      refine .inr (.inr (.inr (.inr ?_)))
      cases hr : s.inReset <;> simp only [hr, Bool.false_eq_true, if_false, if_true] at h <;> subst h
      · exact .inr ⟨ts, rfl, rfl, rfl⟩
      · exact .inl ⟨ts, rfl, rfl, rfl⟩

end Sys2Proof.Machine
end

