-- ==== Sys2Proof/Laws/PerInstr.lean ====
section
/-! SUPPORT. Statements about every command, one lemma a constructor: the family EncodeFits says that the encoder's word
fits the row of the command's mnemonic in R79's table, whatever the command's fields are. -/

namespace Sys2Proof.Laws.EncodeFits

/-- R79: the word of a command fits the row of its mnemonic. -/
def Statement (i : Instr) : Prop := ∃ p ∈ patterns, p.name = mnemonic i ∧ p.fits (encode i) = true

/-- A command word keeps only LEN outside the bits that select its opcode. -/
theorem commandWord_fixed : ∀ (op : BitVec 4) (len : BitVec 11),
    commandWord op false len &&& 0xF800FFFF = op.setWidth 32 := by
  intro op len
  ext k hk
  simp only [commandWord, BitVec.getElem_and, BitVec.getElem_append, BitVec.getElem_setWidth]
  interval_cases k <;> simp

theorem clear : Statement .clear := by unfold Statement; decide
theorem kdf (len : BitVec 11) : Statement (.kdf len) :=
  ⟨⟨"KDF", 0x00000002, 0xF800FFFF⟩, by decide, rfl, by simp only [Pattern.fits, encode, commandWord_fixed]; decide⟩
theorem cipherInit (dir : Bool) : Statement (.cipherInit dir) := by unfold Statement; revert dir; decide
theorem cipherUpdate (len : BitVec 11) : Statement (.cipherUpdate len) :=
  ⟨⟨"CIPHER_UPDATE", 0x00000004, 0xF800FFFF⟩, by decide, rfl,
    by simp only [Pattern.fits, encode, commandWord_fixed]; decide⟩
theorem cipherFinal : Statement .cipherFinal := by unfold Statement; decide
theorem digestInit : Statement .digestInit := by unfold Statement; decide
theorem digestUpdate (len : BitVec 11) : Statement (.digestUpdate len) :=
  ⟨⟨"DIGEST_UPDATE", 0x00000007, 0xF800FFFF⟩, by decide, rfl,
    by simp only [Pattern.fits, encode, commandWord_fixed]; decide⟩
theorem digestFinal : Statement .digestFinal := by unfold Statement; decide
theorem hex : Statement .hex := by unfold Statement; decide

end Sys2Proof.Laws.EncodeFits
end

