-- ==== Sys2Proof/Laws/Session.lean ====
section
/-! SUPPORT. What waiting for a command, and a session's access, can do (spec 45_host_session.md R199, R203). -/

namespace Sys2Proof.Machine

/-- Waiting changes the engine and takes one entry of the polls; the sink stays. -/
theorem awaitCompletion_cases {h h' : Session} (ha : awaitCompletion h = .next h') :
    ∃ s, hostWait (h.polls.headD 0) h.engine = .next s ∧ h' = { h with engine := s, polls := h.polls.tail } := by
  simp only [awaitCompletion, andThen] at ha
  split at ha
  · cases ha; exact ⟨_, ‹_›, rfl⟩
  all_goals cases ha

/-- R199, R203: a session's access goes on without a bus error; with one it ends in the CLEAR of `giveUp`, at once when
the engine is idle and after its completion when a command is in flight. -/
theorem sessionAccess_cases (a : Access) (h : Session)
    (k : Session → Host.Outcome (Session × HostResult) Fault Refusal) :
    let g : Session := { h with engine := busAccess a h.engine }
    let err := (g.engine.resp.getD ⟨0, false⟩).busError
    (err = false ∧ sessionAccess a h k = k g) ∨
    (err = true ∧ g.engine.busy = false ∧ sessionAccess a h k = giveUp (.fail 1 0x02) g) ∨
    (err = true ∧ g.engine.busy = true ∧
      sessionAccess a h k = andThen (awaitCompletion g) (giveUp (.fail 1 0x02))) := by
  intro g err
  cases he : err <;> cases hb : g.engine.busy <;> simp_all [sessionAccess, andThen, g, err]

end Sys2Proof.Machine
end

