-- ==== Sys2Proof/Tests/Slice0.lean ====
section
/-! SUPPORT. Tests: the well-formedness smoke, words written out from the encoding (spec 30_encoding.md R71, R76, R80),
values of 95_test_vectors.md, and for every statement with hypotheses a concrete state and operands that meet
them. -/

namespace Sys2Proof.Tests

open Sys2Proof.Machine

/-! ### Well-formedness (R74, R76): LEN over 1024 is refused, 1024 is not -/

theorem test_wf_kdf : (Instr.kdf 1025).wf = false ∧ (Instr.kdf 1024).wf = true := by decide
theorem test_wf_cipherUpdate : (Instr.cipherUpdate 2047).wf = false ∧ (Instr.cipherUpdate 1024).wf = true := by decide
theorem test_wf_digestUpdate : (Instr.digestUpdate 1025).wf = false ∧ (Instr.digestUpdate 0).wf = true := by decide

/-! ### Decoding: RES1, LEN, RES0, DIR, OP written bit by bit from R71 and R76 -/

theorem test_decode_clear : decode 0b00000_00000000000_00000000000_0_0001#32 = .command .clear := by decide
theorem test_decode_kdf : decode 0b00000_00000000100_00000000000_0_0010#32 = .command (.kdf 4) := by decide
theorem test_decode_cipherInit_encrypt :
    decode 0b00000_00000000000_00000000000_1_0011#32 = .command (.cipherInit true) := by decide
theorem test_decode_cipherInit_decrypt :
    decode 0b00000_00000000000_00000000000_0_0011#32 = .command (.cipherInit false) := by decide
theorem test_decode_cipherUpdate :
    decode 0b00000_10000000000_00000000000_0_0100#32 = .command (.cipherUpdate 1024) := by decide
theorem test_decode_cipherFinal : decode 0b00000_00000000000_00000000000_0_0101#32 = .command .cipherFinal := by decide
theorem test_decode_digestInit : decode 0b00000_00000000000_00000000000_0_0110#32 = .command .digestInit := by decide
theorem test_decode_digestUpdate :
    decode 0b00000_00000011011_00000000000_0_0111#32 = .command (.digestUpdate 27) := by decide
theorem test_decode_digestFinal : decode 0b00000_00000000000_00000000000_0_1000#32 = .command .digestFinal := by decide
theorem test_decode_hex : decode 0b00000_00000000000_00000000000_0_1001#32 = .command .hex := by decide

/-- V-ENC: the words rejected with BADCMD; 0x1A and 0x04010012 fail more than one check. -/
theorem test_decode_badcmd :
    [0x00000000, 0x0000000A, 0x0000000F, 0x00000021, 0x08000001, 0x00000011, 0x00000017, 0x0000001A,
      0x04010012].map decode = List.replicate 9 .badcmd := by decide

/-- V-ENC and R80: the words rejected with BADLEN. -/
theorem test_decode_badlen :
    [0x00010001, 0x00200003, 0x04010002, 0x07FF0004, 0x04010004, 0x00010009].map decode
      = List.replicate 6 .badlen := by decide

/-- R80: the words of the encoding examples. -/
theorem test_encode :
    [Instr.kdf 0, .cipherInit true, .cipherUpdate 19, .digestUpdate 27, .hex].map encode
      = [0x00000002, 0x00000013, 0x00130004, 0x001B0007, 0x00000009] := by decide

theorem test_decodeTableWord :
    decodeTableWord 32 0x00130004 = some (.cipherUpdate 19) ∧ decodeTableWord 32 0x16 = none := by decide

/-- R81: lines of the assembler. -/
theorem test_assemble :
    assemble ['K', 'D', 'F', ' ', '#', '0', 'x', '4', ' ', ';', 'x'] = some 0x00040002 ∧
      assemble ['C', 'I', 'N', 'I', 'T', ' ', 'E', 'N', 'C'] = some 0x00000013 ∧
      assemble ['C', 'U', 'P', 'D', ' ', '#', '1', '0', '2', '5'] = none := by decide

/-- R83: CUPD's expansion is R83's list, and a KDF line with a string is a pseudo-instruction. -/
theorem test_expand :
    parseLine ['K', 'D', 'F', ' ', '"', '1', '"'] = some (.kdfOf [0x31]) ∧
      (AsmLine.cupdOf [1, 2]).expand = [.win 0 [1, 2], .command (.cipherUpdate 2), .wait, .rerr, .rout] := by decide

/-! ### Helpers -/

/-- A fresh instance in an FSM state. -/
def inFsm (f : Fsm) : State := { State.reset with fsm := f }

/-- A fresh instance with a command word in flight and turns to come. -/
def inFlight (w : Word) (turns : List Turn) : State := { State.reset with busy := true, lcmd := w, turns := turns }

/-- A decrypt context in C_STREAM that holds a block back. -/
def holding (b : Bytes) : State := { inFsm .cStream with held := fit 16 b, heldv := true }

/-- A test of the state a step leaves. -/
def leaves (p : State → Bool) : Host.Outcome State Fault Refusal → Bool
  | .next t => p t
  | .fault _ => false
  | .refused _ => false

/-- "abc". -/
def abc : Bytes := [0x61, 0x62, 0x63]

/-- A 1024-byte string. -/
def longString : Bytes := List.replicate 1024 0x62

theorem longString_length : longString.length = 1024 := List.length_replicate

/-! ### The step and single commands (V-CMD, V-RESET) -/

/-- V-RESET: the first CINIT gives INIT_FAIL, placed where the step takes its next command. -/
theorem test_step_cipherInit :
    leaves (fun t => t.errcode == 0x211 && t.fsm == .fault && t.status == 0x72) (step (State.reset.withFetchWord 32 0x13))
      = true := by decide +kernel

/-- V-CMD: in UNINIT CFIN gives SEQ; an illegal word gives BADCMD, a LEN of 1025 BADLEN. -/
theorem test_step_errors :
    leaves (fun t => t.errcode == 0x101 && t.fsm == .uninit) (step (State.reset.withFetchWord 32 0x5)) = true ∧
      leaves (fun t => t.errcode == 0x102) (step (State.reset.withFetchWord 32 0x0)) = true ∧
      leaves (fun t => t.errcode == 0x103) (step (State.reset.withFetchWord 32 0x04010004)) = true := by decide +kernel

/-- V-CMD: CLEAR in FAULT gives OK and STATUS 0. -/
theorem test_clear :
    leaves (fun t => t.status == 0 && t.errcode == 0) (exec .clear { inFsm .fault with cmdOvr := true }) = true := by
  decide +kernel

/-- V-CMD: KDF in D_FINAL keeps STATE and sets KEYV (STATUS 0x64). -/
theorem test_kdf_status : leaves (fun t => t.status == 0x64) (exec (.kdf 0) (inFsm .dFinal)) = true := by
  decide +kernel

/-- V-KDF row 2: KDF "1234", KEY's and IV's first four bytes. -/
theorem test_kdf_value :
    leaves (fun t => t.key.toList.take 4 == [0xbb, 0xf4, 0xc4, 0x2b] && t.iv.toList.take 4 == [0x71, 0xba, 0xf2, 0xe7])
      (exec (.kdf 4) (State.reset.given [0x31, 0x32, 0x33, 0x34])) = true := by decide +kernel

/-- V-KDF row 7: PBKDF2 of "1234", the first and the last four of its 48 bytes. -/
theorem test_pbkdf2 :
    let k := pbkdf2 Config.standard.salt.toList [0x31, 0x32, 0x33, 0x34]
    k.take 4 = [0x1a, 0xc9, 0xfd, 0x84] ∧ k.drop 44 = [0xf2, 0x9c, 0xe8, 0xcb] := by decide +kernel

/-- R126: CINIT DEC takes KEY and IV and consumes them. -/
theorem test_cipherInit :
    leaves (fun t => t.ckey.toList == List.replicate 32 7 && t.cv.toList == List.replicate 16 9 && !t.keyv
        && t.key == zeros 32 && t.fsm == .cInit && t.status == 0x10)
      (exec (.cipherInit false)
        { State.reset with keyv := true, key := Vector.replicate 32 7, iv := Vector.replicate 16 9 }) = true := by
  decide +kernel

/-- V-EMIT: in an encrypt context 15 bytes emit nothing and one more emits a block. -/
theorem test_cipherUpdate_partial :
    leaves (fun t => t.outLen == 0 && t.cbuf.length == 15)
      (exec (.cipherUpdate 15) { inFsm .cInit with cdir := true }) = true ∧
    leaves (fun t => t.outLen == 16 && t.cbuf.length == 0)
      (exec (.cipherUpdate 1) { inFsm .cStream with cdir := true, cbuf := List.replicate 15 0 }) = true := by
  decide +kernel

/-- V-DECFIN row 5: the 15 bytes before the padding byte. -/
theorem test_cipherFinal_strips :
    leaves (fun t => t.outLen == 15 && t.dataOutByte 14 == some 0x4f && t.fsm == .cFinal)
      (exec .cipherFinal (holding
        [0x41, 0x42, 0x43, 0x44, 0x45, 0x46, 0x47, 0x48, 0x49, 0x4a, 0x4b, 0x4c, 0x4d, 0x4e, 0x4f, 0x01])) = true := by
  decide +kernel

/-- V-DECFIN rows 1 to 3: invalid padding. -/
theorem test_cipherFinal_pad :
    (([List.replicate 16 0, List.replicate 15 0 ++ [0x11], List.replicate 14 0 ++ [0x01, 0x02]] : List Bytes).all
      fun b => leaves (fun t => t.errcode == 0x214 && t.fsm == .fault) (exec .cipherFinal (holding b))) = true := by
  decide +kernel

/-- V-CMD: DINIT in FAULT gives SEQ; in D_FINAL it zeroes DIGEST. -/
theorem test_digestInit :
    leaves (fun t => t.errcode == 0x101 && t.fsm == .fault) (exec .digestInit (inFsm .fault)) = true ∧
      leaves (fun t => t.digest == zeros 32 && t.hs == shaH0)
        (exec .digestInit { inFsm .dFinal with digest := Vector.replicate 32 1 }) = true := by decide +kernel

/-- V-CMD: DUPD #0 in D_INIT gives D_ACCUM; three bytes stay in HBUF. -/
theorem test_digestUpdate :
    leaves (fun t => t.fsm == .dAccum && t.hlen == 0) (exec (.digestUpdate 0) (inFsm .dInit)) = true ∧
      leaves (fun t => t.hbuf == abc && t.hlen == 3) (exec (.digestUpdate 3) ((inFsm .dInit).given abc)) = true := by
  decide +kernel

/-- R174: SHA256("abc") out of a context that absorbed it. -/
theorem test_digestFinal :
    leaves (fun t => t.digest.toList.take 4 == [0xba, 0x78, 0x16, 0xbf] && t.dataOutByte 31 == some 0xad)
      (exec .digestFinal { inFsm .dAccum with hs := shaH0, hbuf := abc, hlen := 3 }) = true := by decide +kernel

/-- V-HEX: the byte 0x0a is "0a", 0xbf is "bf"; 32 bytes give 64 characters. -/
theorem test_hex :
    hexString [0x0a, 0xbf] = [0x30, 0x61, 0x62, 0x66] ∧
      leaves (fun t => t.outLen == 64 && t.dataOutByte 63 == some 0x30) (exec .hex (inFsm .dFinal)) = true := by
  decide +kernel

/-! ### The block cipher and the window (V-AES, V-BUS) -/

/-- The key of V-AES. -/
def katKey : Key := fit 32 ((List.range 32).map fun i => BitVec.ofNat 8 i)

/-- The plaintext of R157. -/
def katPlain : Block := fit 16 ((List.range 16).map fun i => BitVec.ofNat 8 (17 * i))

/-- The ciphertext of R157. -/
def katCipher : Block :=
  fit 16 [0x8e, 0xa2, 0xb7, 0xca, 0x51, 0x67, 0x45, 0xbf, 0xea, 0xfc, 0x49, 0x90, 0x4b, 0x49, 0x60, 0x89]

/-- R157. -/
theorem test_aes_encrypt : (aesEncrypt katKey katPlain).toList = katCipher.toList := by decide +kernel
/-- R157. -/
theorem test_aes_decrypt : (aesDecrypt katKey katCipher).toList = katPlain.toList := by decide +kernel

/-- V-BUS: a 16-bit read takes two bytes, the lower offset in the low bits; a misaligned one is a bus error. -/
theorem test_bus_read :
    let s : State := { State.reset with mem := [(0x802, 0x37), (0x803, 0x38)], outLen := 64 }
    (busAccess (.read 0x802 2) s).resp = some ⟨0x3837, false⟩ ∧
      (busAccess (.read 0x801 4) s).resp = some ⟨0, true⟩ := by decide +kernel

/-- V-BUS: a 32-bit write of 0x34333231 stores "1234". -/
theorem test_bus_write :
    (busAccess (.write 0x400 4 0x34333231) State.reset).mem
      = [(0x400, 0x31), (0x401, 0x32), (0x402, 0x33), (0x403, 0x34)] := by decide +kernel

/-- R82: with three polls to come WAIT makes four reads of STATUS for a command in flight and one on an idle engine. -/
theorem test_hostWait :
    leaves (fun t => t.draws == 16 && !t.busy) (hostWait 3 (inFlight 6 [])) = true ∧
      leaves (fun t => t.draws == 4) (hostWait 3 State.reset) = true := by decide +kernel

/-- A test of what a session returns. -/
def returns (r : HostResult) : Host.Outcome (Session × HostResult) Fault Refusal → Bool
  | .next o => o.2 == r
  | .fault _ => false
  | .refused _ => false

/-- R189, R200: cmd of a word that is no command (P4's 0x0000000A, and KDF with LEN = 1025). -/
theorem test_hostCmdWord_illegal :
    returns (.fail 1 0x02) (hostCmdWord 0x0000000A ⟨State.reset, [1], [], []⟩) = true ∧
      returns (.fail 1 0x03) (hostCmdWord 0x04010002 ⟨State.reset, [], [], []⟩) = true := by decide +kernel

/-- R146: a cipher given as two exchanges under one key, and none under another; D undoes E. -/
theorem test_custom_cipher :
    let a : Block := zeros 16
    let b : Block := Vector.replicate 16 1
    let c : Block := Vector.replicate 16 2
    let cipher : BlockCipher := .custom [⟨zeros 32, a, b⟩, ⟨zeros 32, b, c⟩]
    blockEncrypt cipher (zeros 32) a = c ∧ blockDecrypt cipher (zeros 32) c = a ∧ blockEncrypt cipher katKey a = a := by
  decide +kernel

/-- R199, R203: a bus error with DINIT in flight (a wrong-width poll): the host waits, and its CLEAR is not dropped. -/
theorem test_session_busError_busy :
    (match sessionAccess (.read 0x004 1) ⟨inFlight 6 [], [2], [], []⟩ fun h => .next (h, .ok []) with
      | .next o => o.2 == .fail 1 0x02 && o.1.engine.status == 0
      | .fault _ => false
      | .refused _ => false) = true := by decide +kernel

/-- R199: a bus error ends a session with FAIL(1, 0x02). -/
theorem test_session_busError :
    returns (.fail 1 0x02) (sessionAccess (.read 0x801 4) ⟨State.reset, [], [], []⟩ fun h => .next (h, .ok [])) = true := by
  decide +kernel

/-! ### Witnesses: for each statement with hypotheses, a state and operands that meet them -/

/-- A fresh instance whose BASE is 4096. -/
def pageOne : State := State.resetOf { Config.standard with basePage := 1 }

theorem witness_StepRunsTheDecodedCommand :
    (inFlight 1 []).busy = true ∧ decode (inFlight 1 []).lcmd = .command .clear ∧ (inFlight 1 []).turns = [] ∧
      (inFlight 1 [.engine]).busy = true ∧ (inFlight 1 [.engine]).turns = [.engine] := by decide

theorem witness_StepTakesTheNextTurn :
    (inFlight 1 [.host (.read 4 4)]).turns = [.host (.read 4 4)] ∧
      { State.reset with turns := [Turn.engine] }.turns = [.engine] ∧ State.reset.busy = false ∧
      { State.reset with turns := [Turn.resetAssert] }.turns = [.resetAssert] ∧
      { State.reset with turns := [Turn.resetRelease] }.turns = [.resetRelease] ∧ State.reset.turns = [] := by decide

theorem witness_IllegalWordCompletesWithItsCode :
    (inFlight 0 []).busy = true ∧ decode (inFlight 0 []).lcmd = .badcmd ∧ (inFlight 0 []).turns = [] ∧
      (inFlight 0x04010004 [.engine]).busy = true ∧ decode (inFlight 0x04010004 [.engine]).lcmd = .badlen ∧
      (inFlight 0x04010004 [.engine]).turns = [.engine] := by decide

theorem witness_WrongStateCompletesWithSeq :
    Instr.hex.wf = true ∧ legalIn .hex State.reset.fsm = false ∧ (Instr.kdf 1024).wf = true ∧
      legalIn (.kdf 1024) (inFsm .cInit).fsm = false ∧ (Instr.kdf 1025).wf = false := by decide

theorem witness_SuccessFollowsTheStateTable :
    ∃ t, exec .clear State.reset = .next t ∧ t.errcode = 0 := ⟨_, rfl, rfl⟩

theorem witness_CryptoErrorEntersFault_initFail :
    ∃ t, exec (.cipherInit true) State.reset = .next t ∧ t.errKind = 2 := ⟨_, rfl, by decide⟩

theorem witness_CryptoErrorEntersFault_finalLen :
    ∃ t, exec .cipherFinal (inFsm .cStream) = .next t ∧ t.errKind = 2 := ⟨_, rfl, by decide⟩

theorem witness_CryptoErrorEntersFault_finalPad :
    leaves (fun t => t.errKind == 2) (exec .cipherFinal (holding (List.replicate 16 0))) = true := by decide +kernel

theorem witness_OnlyClearOrResetLeavesFault_clear :
    ∃ t, step { inFlight 1 [] with fsm := .fault } = .next t ∧ t.fsm ≠ .fault := ⟨_, rfl, by decide⟩

theorem witness_OnlyClearOrResetLeavesFault_assert :
    ∃ t, step { inFsm .fault with turns := [.resetAssert] } = .next t ∧ t.fsm ≠ .fault := ⟨_, rfl, by decide⟩

theorem witness_OnlyClearOrResetLeavesFault_release :
    ∃ t, step { inFsm .fault with turns := [.resetRelease], inReset := true } = .next t ∧ t.fsm ≠ .fault :=
  ⟨_, rfl, by decide⟩

theorem witness_CmdOvrIsSticky_drop :
    (inFlight 1 []).inReset = false ∧ (inFlight 1 []).busy = true ∧
      (∃ t, exec .clear State.reset = .next t) ∧ (∃ t, takeTurn .resetAssert State.reset = .next t) :=
  ⟨rfl, rfl, ⟨_, rfl⟩, ⟨_, rfl⟩⟩

theorem witness_CmdOvrIsSticky_falls :
    ∃ t, step { inFlight 1 [] with cmdOvr := true } = .next t ∧ t.cmdOvr = false := ⟨_, rfl, by decide⟩

theorem witness_CmdOvrIsSticky_rises :
    ∃ t, step (inFlight 1 [.host (.write 0 4 5)]) = .next t ∧ t.cmdOvr = true := ⟨_, rfl, by decide⟩

theorem witness_ParametersNeverChange : ∃ t, step (inFlight 9 []) = .next t := ⟨_, rfl⟩

/-- R43: a state that is about to take a command meets the invariants, and has a next state. -/
theorem witness_EveryStepKeepsTheInvariants :
    { State.reset with turns := [Turn.host (.write 0 4 1)] }.Inv ∧
      ∃ t, step { State.reset with turns := [Turn.host (.write 0 4 1)] } = .next t :=
  ⟨by constructor <;> decide +kernel, _, rfl⟩

theorem witness_OutputsFitDataOut : State.reset.Inv ∧ ∃ t, exec .hex State.reset = .next t :=
  ⟨by constructor <;> decide +kernel, _, rfl⟩

theorem witness_CommandsKeepDataIn : (∃ t, exec .hex (inFsm .dFinal) = .next t) ∧ 0 < 1024 ∧ 1023 < 1024 :=
  ⟨⟨_, rfl⟩, by decide, by decide⟩

theorem witness_AssertedResetIgnoresTheBus :
    { State.reset with inReset := true }.inReset = true ∧ 0 < 4096 ∧ 4095 < 4096 := by decide

theorem witness_RegisterReads : State.reset.inReset = false := by decide

theorem witness_OutsideTheWindowNothingHappens :
    4095 < pageOne.cfg.base ∧ pageOne.cfg.base + 4096 ≤ 8192 ∧ 0 < 4096 ∧ 4095 < 4096 := by decide

/-- The legal accesses at the edges of the two halves of the window, and illegal ones beside them. -/
theorem witness_IllegalAccessesGetABusError :
    State.reset.inReset = false ∧
      (0x3FC < 0x400 ∧ 4 = 4 ∧ 0x3FC % 4 = 0) ∧ (0x400 ≤ 0x400 ∧ 1 = 1) ∧ (0x400 ≤ 0xFFE ∧ 0xFFE % 2 = 0) ∧
      (0x400 ≤ 0xFFC ∧ 0xFFC % 4 = 0 ∧ 0xFFF < 4096) ∧
      accessLegal 0x3FF 1 = false ∧ accessLegal 0x001 4 = false ∧ accessLegal 0xFFF 2 = false ∧
      accessLegal 0x400 3 = false := by decide

theorem witness_ReservedOffsetsReadZero :
    State.reset.inReset = false ∧
      (0x010 ≤ 0x010 ∧ accessLegal 0x010 4 = true) ∧ (0x3FC < 0x400 ∧ accessLegal 0x3FC 4 = true) ∧
      (0xC00 ≤ 0xC00 ∧ accessLegal 0xC00 4 = true) ∧ (0xFFF < 0x1000 ∧ accessLegal 0xFFF 1 = true) := by decide

theorem witness_ReadOnlyOffsetsIgnoreWrites :
    State.reset.inReset = false ∧
      (0x004 ≤ 0x004 ∧ accessLegal 0x004 4 = true) ∧ (0x00C < 0x010 ∧ accessLegal 0x00C 4 = true) ∧
      (0x800 ≤ 0x800 ∧ accessLegal 0x800 4 = true) ∧ (0xBFF < 0xC00 ∧ accessLegal 0xBFF 1 = true) := by decide

theorem witness_DataInHoldsWhatIsWritten :
    State.reset.inReset = false ∧ (inFlight 1 []).inReset = false ∧
      (0 < 1024 ∧ accessLegal (0x400 + 0) 4 = true) ∧ (1023 < 1024 ∧ accessLegal (0x400 + 1023) 1 = true) := by decide

/-- A byte below OUT_LEN while BUSY = 0, one at OUT_LEN, and any byte while BUSY = 1. -/
theorem witness_DataOutReads :
    let s : State := { State.reset with mem := [(0x800, 0x62)], outLen := 1 }
    s.inReset = false ∧ (0 < 1024 ∧ accessLegal (0x800 + 0) 4 = true) ∧ (1023 < 1024 ∧ accessLegal (0x800 + 1023) 1 = true) ∧
      (s.busy = false ∧ 0 + 0 < s.outLen.toNat ∧ s.dataOutByte (0 + 0) = some 0x62) ∧ s.outLen.toNat ≤ 0 + 1 ∧
      (inFlight 1 []).busy = true := by decide

theorem witness_ReadsHaveNoSideEffect :
    0x7FF < State.reset.cfg.base + 0x800 ∧ State.reset.cfg.base + 0xC00 ≤ 0xC00 := by decide

theorem witness_CommandIsAccepted :
    State.reset.inReset = false ∧ State.reset.busy = false ∧ ∀ i, decode 0 ≠ .command i := by
  refine ⟨rfl, rfl, fun i h => ?_⟩
  have h0 : decode 0 = .badcmd := by decide
  exact absurd (h0.symm.trans h) (by simp)

theorem witness_CommandWhileBusyIsDropped :
    (inFlight 1 []).inReset = false ∧ (inFlight 1 []).busy = true := by decide

theorem witness_WaitingEndsWithTheCompletion :
    (inFlight 1 []).inReset = false ∧ (inFlight 1 []).busy = true ∧ State.reset.inReset = false ∧
      State.reset.busy = false := by decide

theorem witness_KdfDerivesKeyAndIv :
    (0 : BitVec 11).toNat ≤ 1024 ∧ (1024 : BitVec 11).toNat ≤ 1024 ∧ legalIn (.kdf 0) State.reset.fsm = true ∧
      legalIn (.kdf 1024) (inFsm .cFinal).fsm = true ∧ legalIn (.kdf 1024) (inFsm .dFinal).fsm = true := by decide

theorem witness_KdfConstructions :
    Config.standard.kdfVariant = .bytesToKeySha256 ∧
      { Config.standard with kdfVariant := .pbkdf2HmacSha256 }.kdfVariant = .pbkdf2HmacSha256 := by decide

theorem witness_CipherInitBindsTheContext :
    let s : State := { State.reset with keyv := true }
    legalIn (.cipherInit true) s.fsm = true ∧ legalIn (.cipherInit false) s.fsm = true ∧ s.keyv = true := by decide

theorem witness_CipherInitWithoutKeyFails :
    legalIn (.cipherInit true) State.reset.fsm = true ∧ State.reset.keyv = false := by decide

theorem witness_ZeroLengthCipherUpdate :
    legalIn (.cipherUpdate 0) (inFsm .cInit).fsm = true ∧ legalIn (.cipherUpdate 0) (inFsm .cStream).fsm = true := by
  decide

theorem witness_EncryptUpdateIsCbc :
    let s : State := { inFsm .cInit with cdir := true }
    1 ≤ (1 : BitVec 11).toNat ∧ (1024 : BitVec 11).toNat ≤ 1024 ∧ legalIn (.cipherUpdate 1) s.fsm = true ∧
      legalIn (.cipherUpdate 1024) s.fsm = true ∧ s.cdir = true := by decide

theorem witness_DecryptUpdateHoldsTheLastBlock :
    let s := holding (List.replicate 16 1)
    1 ≤ (1 : BitVec 11).toNat ∧ (1024 : BitVec 11).toNat ≤ 1024 ∧ legalIn (.cipherUpdate 1) s.fsm = true ∧
      legalIn (.cipherUpdate 1024) s.fsm = true ∧ s.cdir = false := by decide

theorem witness_EncryptFinalPads :
    let s : State := { inFsm .cStream with cdir := true }
    let s' : State := { s with cbuf := List.replicate 15 0 }
    legalIn .cipherFinal s.fsm = true ∧ s.cdir = true ∧ s.cbuf.length ≤ 15 ∧
      legalIn .cipherFinal s'.fsm = true ∧ s'.cdir = true ∧ s'.cbuf.length ≤ 15 := by decide

theorem witness_DecryptFinalStripsThePadding_one :
    let s := holding (List.replicate 16 1)
    legalIn .cipherFinal s.fsm = true ∧ s.cdir = false ∧ s.cbuf = [] ∧ s.heldv = true ∧ 1 ≤ 1 ∧ 1 ≤ 16 ∧
      s.held.toList = List.replicate 15 1 ++ List.replicate 1 (BitVec.ofNat 8 1) := by decide

theorem witness_DecryptFinalStripsThePadding_sixteen :
    let s := holding (List.replicate 16 16)
    legalIn .cipherFinal s.fsm = true ∧ s.cdir = false ∧ s.cbuf = [] ∧ s.heldv = true ∧ 1 ≤ 16 ∧ 16 ≤ 16 ∧
      s.held.toList = [] ++ List.replicate 16 (BitVec.ofNat 8 16) := by decide

theorem witness_DecryptFinalErrors_length :
    let s : State := { holding (List.replicate 16 1) with cbuf := [0] }
    legalIn .cipherFinal s.fsm = true ∧ s.cdir = false ∧ s.cbuf ≠ [] ∧
      legalIn .cipherFinal (inFsm .cInit).fsm = true ∧ (inFsm .cInit).heldv = false := by decide

theorem witness_DecryptFinalErrors_padding :
    let s := holding (List.replicate 16 0)
    legalIn .cipherFinal s.fsm = true ∧ s.cdir = false ∧ s.cbuf = [] ∧ s.heldv = true ∧
      ¬ ∃ (m : Bytes) (p : Nat), 1 ≤ p ∧ p ≤ 16 ∧ s.held.toList = m ++ List.replicate p (BitVec.ofNat 8 p) := by
  refine ⟨rfl, rfl, rfl, rfl, ?_⟩
  rintro ⟨m, p, h1, h2, h⟩
  have h0 : BitVec.ofNat 8 p ∈ (holding (List.replicate 16 0)).held.toList := by
    rw [h]; simp; omega
  have h3 : (holding (List.replicate 16 0)).held.toList = List.replicate 16 0 := by decide
  rw [h3] at h0
  have h4 := (List.mem_replicate.mp h0).2
  have h5 := congrArg BitVec.toNat h4
  simp at h5
  omega

theorem witness_EncryptionIgnoresTheChunking :
    let s : State := { inFsm .cInit with cdir := true }
    chunksFit [] ∧ chunksFit [longString, abc] ∧ s.fsm = .cInit ∧ s.cdir = true ∧ s.cbuf = [] := by
  simp [chunksFit, longString_length, abc, inFsm, State.reset, State.resetOf]

theorem witness_DecryptionIgnoresTheChunking :
    chunksFit [] ∧ chunksFit [longString, abc] ∧ (inFsm .cInit).fsm = .cInit ∧ (inFsm .cInit).cdir = false ∧
      (inFsm .cInit).cbuf = [] ∧ (inFsm .cInit).heldv = false := by
  simp [chunksFit, longString_length, abc, inFsm, State.reset, State.resetOf]

theorem witness_DecryptionInvertsEncryption :
    State.reset.fsm.idle = true ∧ longString.length ≤ 1024 ∧
      chunksFit [longString, abc] ∧ ([] : Bytes).length ≤ 1024 ∧ chunksFit [] :=
  ⟨rfl, by simp [longString_length], by simp [chunksFit, longString_length, abc], by decide, by simp [chunksFit]⟩

/-- Every ciphertext can be cut into chunks: into single bytes, for one. -/
theorem witness_DecryptionInvertsEncryption_chunks (c : Bytes) : ∃ chunks, chunksFit chunks ∧ chunks.flatten = c :=
  ⟨c.map fun b => [b], by simp [chunksFit], by induction c <;> simp_all⟩

theorem witness_EmptyCiphertextFails :
    State.reset.fsm.idle = true ∧ abc.length ≤ 1024 ∧ ([] : List Bytes).flatten = [] ∧
      ([[], []] : List Bytes).flatten = [] := by decide

theorem witness_DigestInitStartsAFreshContext :
    legalIn .digestInit State.reset.fsm = true ∧ legalIn .digestInit (inFsm .cFinal).fsm = true := by decide

theorem witness_DigestUpdateFoldsTheChunk :
    (0 : BitVec 11).toNat ≤ 1024 ∧ (1024 : BitVec 11).toNat ≤ 1024 ∧
      legalIn (.digestUpdate 0) (inFsm .dInit).fsm = true ∧
      legalIn (.digestUpdate 1024) (inFsm .dAccum).fsm = true := by decide

theorem witness_DigestFinalEmitsTheDigest :
    legalIn .digestFinal (inFsm .dInit).fsm = true ∧ legalIn .digestFinal (inFsm .dAccum).fsm = true := by decide

theorem witness_StreamedDigestIsSha256 :
    State.reset.fsm.idle = true ∧ chunksFit [longString, abc] ∧ [longString, abc].flatten.length < 2 ^ 61 ∧
      chunksFit [] ∧ ([] : List Bytes).flatten.length < 2 ^ 61 :=
  ⟨rfl, by simp [chunksFit, longString_length, abc], by simp [longString_length, abc], by simp [chunksFit], by decide⟩

theorem witness_HexFormatsTheDigest :
    legalIn .hex (inFsm .dFinal).fsm = true ∧ (inFsm .dFinal).digest.toList[0]? = some 0 ∧
      (inFsm .dFinal).digest.toList[31]? = some 0 := by decide

/-- A host with a fresh instance. -/
def freshSession : Session := ⟨State.reset, [], [], []⟩

/-- A word of each kind: a command that succeeds, one that fails, a rejected opcode, a rejected LEN. -/
theorem witness_CommandResultFollowsTheErrorCode :
    freshSession.ready ∧ freshSession.engine.Inv ∧
      leaves (fun u => u.errcode == 0) (engineStep (busAccess (.write 0 4 1) freshSession.engine)) = true ∧
      leaves (fun u => u.errcode == 0x211) (engineStep (busAccess (.write 0 4 0x13) freshSession.engine)) = true ∧
      decode 0x0000000A = .badcmd ∧ decode 0x04010004 = .badlen :=
  ⟨⟨rfl, rfl⟩, by constructor <;> decide +kernel, by decide +kernel, by decide +kernel, by decide, by decide⟩

theorem witness_ChecksumSessionReturnsTheDigest :
    freshSession.ready ∧ sourceFine [.chunk abc, .chunk longString] ∧
      (sourceBytes [.chunk abc, .chunk longString]).length < 2 ^ 61 ∧ sourceFine [] :=
  ⟨⟨rfl, rfl⟩, by simp [sourceFine, longString_length, abc], by simp [sourceBytes, longString_length, abc], by simp [sourceFine]⟩

theorem witness_DecryptSessionInvertsEncryptSession :
    freshSession.ready ∧ freshSession.sinkOk = [] ∧
      abc.length ≤ 1024 ∧ longString.length ≤ 1024 ∧ sourceFine [.chunk abc, .chunk longString] :=
  ⟨⟨rfl, rfl⟩, rfl, by decide, by simp [longString_length], by simp [sourceFine, longString_length, abc]⟩

/-- Every ciphertext can be read: one byte a read, for one. -/
theorem witness_DecryptSessionInvertsEncryptSession_source (c : Bytes) : ∃ src, sourceFine src ∧ sourceBytes src = c :=
  ⟨c.map fun b => .chunk [b], by simp [sourceFine], by induction c <;> simp_all [sourceBytes]⟩

/-- A word with LEN at its limit, one past it, and a word that fits no row. -/
theorem witness_PatternsSelectTheCommand :
    (⟨"KDF", 0x00000002, 0xF800FFFF⟩ : Pattern) ∈ patterns ∧
      (⟨"KDF", 0x00000002, 0xF800FFFF⟩ : Pattern).fits 0x04000002 = true ∧
      (0x04000002 : Word).toNat / 65536 % 2048 ≤ 1024 ∧ (∀ p ∈ patterns, p.fits 0 = false) ∧
      decode 0x00000001 = .command .clear := by decide

/-- A word of each verdict: BADCMD, BADLEN with LEN = 1025, and a command with LEN = 1024. -/
theorem witness_DecodeVerdictConditions :
    decode 0x00000000 = .badcmd ∧ decode 0x04010004 = .badlen ∧ decode 0x04000004 = .command (.cipherUpdate 1024) := by
  decide

/-- The longest LEN a command may have. -/
theorem witness_DecodeExactlyInvertsEncode :
    (Instr.kdf 1024).wf = true ∧ encode (.kdf 1024) = 0x04000002 ∧ decode 0x04000002 = .command (.kdf 1024) := by decide

theorem witness_HexIsInjective : hexString abc = hexString [0x61, 0x62, 0x63] ∧ 0x36 ∈ hexString abc := by decide

end Sys2Proof.Tests
end

section
/-! PROOF. The scope of the model (spec 00_scope.md R8, 10_state.md R33): the parameters of an instance. -/

namespace Sys2Proof.Machine

/-! ### What keeps the parameters of the instance (R33) -/

/-- Whatever a command does, its checks, its own changes or an error, the instance is the same. -/
theorem exec_cfg {i : Instr} {s t : State} (h : exec i s = .next t) : t.cfg = s.cfg := by
  cases i with
  | clear => cases h; simp
  | kdf n => rcases execKdf_cases h with (rfl | rfl) | ⟨-, -, rfl⟩ <;> simp
  | cipherInit d => rcases execCipherInit_cases h with rfl | ⟨-, -, rfl⟩ | ⟨-, -, rfl⟩ <;> simp
  | cipherUpdate n =>
    rcases execCipherUpdate_cases h with (rfl | rfl) | ⟨-, -, rfl⟩ | ⟨-, -, -, rfl⟩ <;> simp
  | cipherFinal =>
    rcases execCipherFinal_cases h with rfl | ⟨-, -, rfl⟩ | ⟨-, -, -, rfl⟩ | ⟨-, -, -, -, -, rfl⟩ |
      ⟨-, -, -, -, -, rfl⟩ <;> simp
  | digestInit => rcases execDigestInit_cases h with rfl | ⟨-, rfl⟩ <;> simp
  | digestUpdate n => rcases execDigestUpdate_cases h with (rfl | rfl) | ⟨-, -, rfl⟩ <;> simp
  | digestFinal => rcases execDigestFinal_cases h with rfl | ⟨-, rfl⟩ <;> simp
  | hex => rcases execHex_cases h with rfl | ⟨-, rfl⟩ <;> simp

theorem engineStep_cfg {s t : State} (h : engineStep s = .next t) : t.cfg = s.cfg := by
  rcases engineStep_cases h with ⟨-, rfl⟩ | ⟨-, rfl⟩ | ⟨-, rfl⟩ | ⟨i, -, -, hi⟩
  · rfl
  · exact complete_cfg _ _ _
  · exact complete_cfg _ _ _
  · exact exec_cfg hi

@[simp] theorem writeWindow_cfg (off n : Nat) (v : Word) (s : State) : (writeWindow off n v s).cfg = s.cfg := by
  rcases writeWindow_cases off n v s with h | ⟨-, -, h⟩ | ⟨-, -, h⟩ | ⟨-, -, h⟩ <;> simp [h]

@[simp] theorem busAccess_cfg (a : Access) (s : State) : (busAccess a s).cfg = s.cfg := by
  rcases busAccess_cases a s with ⟨r, d, h⟩ | ⟨addr, off, n, v, r, -, -, -, -, h⟩ <;> simp [h]

/-- Settles O14, turn by turn: the engine completes at most one command, the host makes one access, and an edge of
the reset input gives the reset values of the same instance. -/
theorem parametersNeverChange : Obligations.ParametersNeverChange := by
  unfold Obligations.ParametersNeverChange
  intro s t h
  rcases step_cases h with ⟨-, he⟩ | ⟨ts, -, he⟩ | ⟨a, ts, -, rfl⟩ | ⟨ts, -, rfl⟩ | ⟨ts, -, -, rfl⟩ | ⟨ts, -, -, rfl⟩
  · exact engineStep_cfg he
  · exact engineStep_cfg (s := { s with turns := ts }) he
  · exact busAccess_cfg a _
  · exact applyReset_cfg true _
  · exact applyReset_cfg false _
  · rfl

end Sys2Proof.Machine
end

section
/-! PROOF. The invariants of the engine's state (spec 10_state.md R43): reset meets them and every step keeps them. -/

namespace Sys2Proof.Machine

/-! ### What a command's completion can be, for all commands at once (R95 to R97) -/

/-- The own changes of a command that succeeds, and its output: `Change s i out r` says that i, run in s, succeeds with
the output `out`, and that r is s with the command's changes made but not yet completed. -/
inductive Change (s : State) : Instr → Bytes → State → Prop where
  | clear : Change s .clear [] (clearContexts s)
  | derive (n : BitVec 11) (hlen : lenLegal n = true) (hidle : s.fsm.idle = true) : Change s (.kdf n) [] (derive n s)
  | bindCipher (dir : Bool) (hidle : s.fsm.idle = true) (hkeyv : s.keyv = true) :
      Change s (.cipherInit dir) [] (bindCipher dir s)
  | emptyUpdate (hin : s.fsm.inCipher = true) : Change s (.cipherUpdate 0) [] { s with fsm := .cStream }
  | update (n : BitVec 11) (hlen : lenLegal n = true) (hin : s.fsm.inCipher = true) (hn : n ≠ 0) :
      Change s (.cipherUpdate n) (s.update (s.operand n)).2 (advanceStream (s.update (s.operand n)).1 s)
  | encFinal (hin : s.fsm.inCipher = true) (hdir : s.cdir = true) :
      Change s .cipherFinal (encFinal s.enc s.stream) (closeCipher s)
  | decFinal (hin : s.fsm.inCipher = true) (hdir : s.cdir = false) (hcbuf : s.cbuf = []) (hheldv : s.heldv = true)
      (hpad : padValid s.held.toList = true) : Change s .cipherFinal (padStrip s.held.toList) (closeCipher s)
  | bindDigest (hidle : s.fsm.idle = true) : Change s .digestInit [] (bindDigest s)
  | absorb (n : BitVec 11) (hlen : lenLegal n = true) (hin : s.fsm.inDigest = true) :
      Change s (.digestUpdate n) [] (absorb (s.operand n) s)
  | closeDigest (hin : s.fsm.inDigest = true) : Change s .digestFinal s.finalDigest (closeDigest s)
  | hex (hfsm : s.fsm = .dFinal) : Change s .hex (hexString s.digest.toList) s

/-- R95 to R97: a command completes with a precondition error on the state as it was, with a cryptographic error on the
state in FAULT, or without error on the state with its own changes made. -/
theorem exec_cases {i : Instr} {s t : State} (h : exec i s = .next t) :
    (∃ c ∈ [ErrCode.seq, .badlen], t = complete c [] s) ∨
      (∃ c ∈ [ErrCode.initFail, .finalLen, .finalPad], t = complete c [] (enterFault s)) ∨
      ∃ out r, Change s i out r ∧ t = complete .none out r := by
  cases i with
  | clear => cases h; exact .inr (.inr ⟨_, _, .clear, rfl⟩)
  | kdf n =>
    rcases execKdf_cases h with (h | h) | ⟨hl, hi, h⟩
    · exact .inl ⟨.badlen, by simp, h⟩
    · exact .inl ⟨.seq, by simp, h⟩
    · exact .inr (.inr ⟨_, _, .derive n hl hi, h⟩)
  | cipherInit d =>
    rcases execCipherInit_cases h with h | ⟨hi, hk, h⟩ | ⟨-, -, h⟩
    · exact .inl ⟨.seq, by simp, h⟩
    · exact .inr (.inr ⟨_, _, .bindCipher d hi hk, h⟩)
    · exact .inr (.inl ⟨.initFail, by simp, h⟩)
  | cipherUpdate n =>
    rcases execCipherUpdate_cases h with (h | h) | ⟨hi, rfl, ht⟩ | ⟨hl, hi, hn, h⟩
    · exact .inl ⟨.badlen, by simp, h⟩
    · exact .inl ⟨.seq, by simp, h⟩
    · exact .inr (.inr ⟨_, _, .emptyUpdate hi, ht⟩)
    · exact .inr (.inr ⟨_, _, .update n hl hi hn, h⟩)
  | cipherFinal =>
    rcases execCipherFinal_cases h with h | ⟨hi, hd, h⟩ | ⟨-, -, -, h⟩ | ⟨hi, hd, hb, hv, hp, h⟩ |
      ⟨-, -, -, -, -, h⟩
    · exact .inl ⟨.seq, by simp, h⟩
    · exact .inr (.inr ⟨_, _, .encFinal hi hd, h⟩)
    · exact .inr (.inl ⟨.finalLen, by simp, h⟩)
    · exact .inr (.inr ⟨_, _, .decFinal hi hd hb hv hp, h⟩)
    · exact .inr (.inl ⟨.finalPad, by simp, h⟩)
  | digestInit =>
    rcases execDigestInit_cases h with h | ⟨hi, h⟩
    · exact .inl ⟨.seq, by simp, h⟩
    · exact .inr (.inr ⟨_, _, .bindDigest hi, h⟩)
  | digestUpdate n =>
    rcases execDigestUpdate_cases h with (h | h) | ⟨hl, hi, h⟩
    · exact .inl ⟨.badlen, by simp, h⟩
    · exact .inl ⟨.seq, by simp, h⟩
    · exact .inr (.inr ⟨_, _, .absorb n hl hi, h⟩)
  | digestFinal =>
    rcases execDigestFinal_cases h with h | ⟨hi, h⟩
    · exact .inl ⟨.seq, by simp, h⟩
    · exact .inr (.inr ⟨_, _, .closeDigest hi, h⟩)
  | hex =>
    rcases execHex_cases h with h | ⟨hf, h⟩
    · exact .inl ⟨.seq, by simp, h⟩
    · exact .inr (.inr ⟨_, _, .hex hf, h⟩)

/-! ### The invariants, in the parts of the state they speak of (R43) -/

/-- R32, R43: the invariants of the key material. -/
structure KeyInv (f : Fsm) (keyv : Bool) (key : Key) (iv : Block) : Prop where
  consumed : keyv = true → f ≠ .cInit ∧ f ≠ .cStream ∧ f ≠ .fault
  zero : keyv = false → key = zeros 32 ∧ iv = zeros 16

/-- R35 to R37: the streaming part of a cipher context with nothing in it. -/
def CipherStream.empty : CipherStream := ⟨zeros 16, [], zeros 16, false⟩

/-- R35 to R37, R41, R43: the invariants of the cipher context. -/
structure CipherInv (f : Fsm) (cdir : Bool) (ckey : Key) (x : CipherStream) : Prop where
  short : x.cbuf.length ≤ 15
  heldDecrypts : x.heldv = true → cdir = false ∧ f = .cStream ∧ x.cbuf = []
  heldEmpty : x.heldv = false → x.held = zeros 16
  zero : f.inCipher = false → ckey = zeros 32 ∧ x = .empty
  fresh : f = .cInit → x.cbuf = []
  direction : f = .uninit ∨ f = .dInit ∨ f = .dAccum ∨ f = .dFinal → cdir = false

/-- R38, R39, R43, R160, R172: the invariants of the hash context and DIGEST. -/
structure HashInv (f : Fsm) (hs : HashWords) (hlen : BitVec 61) (hbuf : Bytes) (digest : DigestBytes) : Prop where
  short : hbuf.length ≤ 63
  zero : f.inDigest = false → hs = .zero ∧ hlen = 0 ∧ hbuf = []
  fresh : f = .dInit → hs = shaH0 ∧ hlen = 0 ∧ hbuf = []
  length : f.inDigest = true → hbuf.length = hlen.toNat % 64
  digestZero : f ≠ .dFinal → digest = zeros 32

/-- The invariants of what a command's own changes touch: key material, contexts and DIGEST, with STATE. -/
structure EngineInv (s : State) : Prop where
  key : KeyInv s.fsm s.keyv s.key s.iv
  cipher : CipherInv s.fsm s.cdir s.ckey s.stream
  hash : HashInv s.fsm s.hs s.hlen s.hbuf s.digest

/-- The invariants of what acceptance and completion touch: the window, BUSY and the error register. -/
structure WindowInv (s : State) : Prop where
  memory : s.mem.wf = true
  outputFits : s.busy = false → s.outLen.toNat ≤ 1024
  outputHeld : s.busy = false → ∀ j, j < s.outLen.toNat → (s.dataOutByte j).isSome = true
  busyQuiet : s.busy = true → s.errcode = 0 ∧ s.outLen = 0
  errcodeLegal : s.errcode ∈ legalErrcodes
  resetIdle : s.inReset = true → s.busy = false

/-- The model's invariants are those of the parts. -/
theorem inv_iff (s : State) : s.Inv ↔ EngineInv s ∧ WindowInv s := by
  constructor
  · intro h
    refine ⟨⟨⟨h.keyConsumed, h.keyZero⟩, ⟨h.cbufShort, h.heldDecrypts, h.heldEmpty, fun hf => ?_, h.cipherFresh,
      h.directionClear⟩, ⟨h.hbufShort, h.hashZero, h.hashFresh, h.hashLength, h.digestZero⟩⟩,
      ⟨h.memory, h.outputFits, h.outputHeld, h.busyQuiet, h.errcodeLegal, h.resetIdle⟩⟩
    obtain ⟨hckey, hcv, hcbuf, hheld, hheldv⟩ := h.cipherZero hf
    exact ⟨hckey, by simp [State.stream, CipherStream.empty, hcv, hcbuf, hheld, hheldv]⟩
  · rintro ⟨⟨hk, hc, hh⟩, hw⟩
    refine
      { memory := hw.memory, cbufShort := hc.short, hbufShort := hh.short, heldDecrypts := hc.heldDecrypts
        heldEmpty := hc.heldEmpty, keyConsumed := hk.consumed, keyZero := hk.zero, outputFits := hw.outputFits
        outputHeld := hw.outputHeld, busyQuiet := hw.busyQuiet, errcodeLegal := hw.errcodeLegal
        cipherZero := fun hf => ?_, cipherFresh := hc.fresh, hashZero := hh.zero, hashFresh := hh.fresh
        hashLength := hh.length, digestZero := hh.digestZero, directionClear := hc.direction
        resetIdle := hw.resetIdle }
    obtain ⟨hckey, hx⟩ := hc.zero hf
    simpa [State.stream, CipherStream.empty, hckey] using hx

/-- A completion itself touches neither STATE nor key material, contexts and DIGEST. -/
theorem EngineInv.complete {s : State} (h : EngineInv s) (c : ErrCode) (out : Bytes) : EngineInv (complete c out s) :=
  ⟨h.key, h.cipher, h.hash⟩

/-- R92, R101: what a completion leaves in the window, when its output fits DATA_OUT and its code is legal. -/
theorem complete_windowInv {c : ErrCode} {out : Bytes} {s : State} (hm : s.mem.wf = true)
    (hc : errWord c ∈ legalErrcodes) (ho : out.length ≤ 1024) : WindowInv (complete c out s) where
  memory := complete_wf c out s hm ho
  outputFits _ := by simp only [complete_outLen, BitVec.toNat_ofNat]; omega
  outputHeld _ j hj := by
    have hj' : j < out.length := lt_of_lt_of_le hj (by simp [complete_outLen, Nat.mod_le])
    rw [complete_dataOutByte, if_pos hj']
    simpa using hj'
  busyQuiet hb := by simp at hb
  errcodeLegal := hc
  resetIdle _ := rfl

/-- A completion meets the invariants when the command's own changes keep the engine's. -/
theorem complete_inv {c : ErrCode} {out : Bytes} {s : State} (he : EngineInv s) (hm : s.mem.wf = true)
    (hc : errWord c ∈ legalErrcodes) (ho : out.length ≤ 1024) : (complete c out s).Inv :=
  (inv_iff _).mpr ⟨he.complete c out, complete_windowInv hm hc ho⟩

/-! ### The parts with nothing in them -/

theorem keyInv_zero (f : Fsm) : KeyInv f false (zeros 32) (zeros 16) :=
  ⟨by simp, fun _ => ⟨rfl, rfl⟩⟩

theorem cipherInv_empty {f : Fsm} {cdir : Bool}
    (hd : f = .uninit ∨ f = .dInit ∨ f = .dAccum ∨ f = .dFinal → cdir = false) :
    CipherInv f cdir (zeros 32) .empty :=
  ⟨by simp [CipherStream.empty], by simp [CipherStream.empty], fun _ => rfl, fun _ => ⟨rfl, rfl⟩, fun _ => rfl, hd⟩

theorem hashInv_zero {f : Fsm} {digest : DigestBytes} (hf : f.inDigest = false)
    (hd : f ≠ .dFinal → digest = zeros 32) : HashInv f .zero 0 [] digest :=
  ⟨by simp, fun _ => ⟨rfl, rfl, rfl⟩, by rintro rfl; simp [Fsm.inDigest] at hf, by simp [hf], hd⟩

/-! ### The parts where another context is bound: STATE's groups exclude each other (R34, R94) -/

theorem Fsm.eq_of_inCipher {f : Fsm} (h : f.inCipher = true) : f = .cInit ∨ f = .cStream := by
  cases f <;> simp [Fsm.inCipher] at h ⊢

theorem Fsm.keyed_of_idle {f : Fsm} (h : f.idle = true) : f ≠ .cInit ∧ f ≠ .cStream ∧ f ≠ .fault := by
  cases f <;> simp [Fsm.idle] at h ⊢

theorem Fsm.not_inDigest_of_inCipher {f : Fsm} (h : f.inCipher = true) : f.inDigest = false ∧ f ≠ .dFinal := by
  cases f <;> simp [Fsm.inCipher, Fsm.inDigest] at h ⊢

theorem Fsm.not_inCipher_of_inDigest {f : Fsm} (h : f.inDigest = true) :
    f.inCipher = false ∧ (f = .dInit ∨ f = .dAccum) := by
  cases f <;> simp [Fsm.inCipher, Fsm.inDigest] at h ⊢

/-- R43: a bound cipher context has consumed the key material, so its part holds in every STATE. -/
theorem KeyInv.of_inCipher {f : Fsm} {keyv : Bool} {key : Key} {iv : Block} (h : KeyInv f keyv key iv)
    (hin : f.inCipher = true) (g : Fsm) : KeyInv g keyv key iv := by
  refine ⟨fun hv => ?_, h.zero⟩
  obtain ⟨hi, hs, -⟩ := h.consumed hv
  exact absurd (Fsm.eq_of_inCipher hin) (by simp [hi, hs])

/-- R43: key material may stand in every STATE but C_INIT, C_STREAM and FAULT. -/
theorem KeyInv.to_keyed {f g : Fsm} {keyv : Bool} {key : Key} {iv : Block} (h : KeyInv f keyv key iv)
    (hg : g ≠ .cInit ∧ g ≠ .cStream ∧ g ≠ .fault) : KeyInv g keyv key iv :=
  ⟨fun _ => hg, h.zero⟩

/-- R43: while a cipher context is bound the hash context and DIGEST are zero, as they are outside D_INIT to D_FINAL. -/
theorem HashInv.of_inCipher {f : Fsm} {hs : HashWords} {hlen : BitVec 61} {hbuf : Bytes} {digest : DigestBytes}
    (h : HashInv f hs hlen hbuf digest) (hin : f.inCipher = true) {g : Fsm} (hg : g.inDigest = false) :
    HashInv g hs hlen hbuf digest := by
  obtain ⟨hd, hf⟩ := Fsm.not_inDigest_of_inCipher hin
  obtain ⟨rfl, rfl, rfl⟩ := h.zero hd
  exact hashInv_zero hg fun _ => h.digestZero hf

/-- R43: while a hash context is bound the cipher context is zero, so its part holds in every STATE. -/
theorem CipherInv.of_inDigest {f : Fsm} {cdir : Bool} {ckey : Key} {x : CipherStream} (h : CipherInv f cdir ckey x)
    (hin : f.inDigest = true) (g : Fsm) : CipherInv g cdir ckey x := by
  obtain ⟨hc, hf⟩ := Fsm.not_inCipher_of_inDigest hin
  obtain ⟨rfl, rfl⟩ := h.zero hc
  exact cipherInv_empty fun _ => h.direction (hf.elim (fun h => .inr (.inl h)) fun h => .inr (.inr (.inl h)))

/-! ### Output lengths (R101) -/

theorem cbcEncrypt_length (e : Block → Block) (cv : Block) (bs : List Bytes) :
    (cbcEncrypt e cv bs).2.length = 16 * bs.length := by
  induction bs generalizing cv with
  | nil => rfl
  | cons b bs ih => simp [cbcEncrypt, ih]; omega

theorem cbcDecrypt_length (d : Block → Block) (cv : Block) (bs : List Bytes) :
    (cbcDecrypt d cv bs).2.length = 16 * bs.length := by
  induction bs generalizing cv with
  | nil => rfl
  | cons b bs ih => simp [cbcDecrypt, ih]; omega

theorem hexString_length (d : Bytes) : (hexString d).length = 2 * d.length := by
  induction d with
  | nil => rfl
  | cons b d ih => rw [hexString, List.flatMap_cons, List.length_append, ← hexString, ih]; simp [hexPair]; omega

theorem finalDigest_length (s : State) : s.finalDigest.length = 32 := hashBytes_length _

theorem operand_length_le (s : State) (n : BitVec 11) : (s.operand n).length ≤ 1024 := by
  simp [State.operand]

theorem encUpdate_length (e : Block → Block) (x : CipherStream) (d : Bytes) :
    (encUpdate e x d).2.length = 16 * ((x.cbuf.length + d.length) / 16) := by
  simp [encUpdate, cbcEncrypt_length, splitBlocks_length]

/-- R133: the bytes of the block held back last time. -/
theorem releaseHeld_length (x : CipherStream) : (releaseHeld x).2.length = if x.heldv = true then 16 else 0 := by
  unfold releaseHeld
  split <;> simp_all

/-- R133: after a release nothing is held, when an unset HELD_V means an empty HELD. -/
theorem releaseHeld_empty {x : CipherStream} (h : x.heldv = false → x.held = zeros 16) :
    (releaseHeld x).1.heldv = false ∧ (releaseHeld x).1.held = zeros 16 := by
  unfold releaseHeld
  split <;> simp_all

/-- R133: the two ways an update in decryption can end: on a block boundary, where the last block is held back, or with
a partial block (or no block at all), where everything is emitted. -/
theorem decUpdate_cases (dec : Block → Block) (x : CipherStream) (d : Bytes) :
    let nb := (x.cbuf.length + d.length) / 16
    let r := decUpdate dec x d
    (0 < nb ∧ r.1.cbuf = [] ∧ r.1.heldv = true ∧ r.2.length = (releaseHeld x).2.length + 16 * nb - 16) ∨
      ((nb = 0 ∨ (x.cbuf.length + d.length) % 16 ≠ 0) ∧ r.1.cbuf.length = (x.cbuf.length + d.length) % 16 ∧
        r.1.heldv = (releaseHeld x).1.heldv ∧ r.1.held = (releaseHeld x).1.held ∧
        r.2.length = (releaseHeld x).2.length + 16 * nb) := by
  intro nb r
  simp only [r, decUpdate, ← List.length_append]
  split
  · rename_i h
    refine .inl ⟨by simpa [nb] using h.1, List.length_eq_zero_iff.mp h.2, rfl, ?_⟩
    simp [cbcDecrypt_length, splitBlocks_length, nb]
  · rename_i h
    simp only [List.length_drop] at h
    refine .inr ⟨by simp only [nb, ← List.length_append]; omega, by simp only [List.length_drop]; omega, rfl, rfl, ?_⟩
    simp [cbcDecrypt_length, splitBlocks_length, nb]

/-! ### The cipher context through an update (R132, R133) -/

/-- R132: an update in encryption keeps the invariants of a bound context, which holds nothing back. -/
theorem encUpdate_cipherInv {f : Fsm} {ckey : Key} {x : CipherStream} (h : CipherInv f true ckey x)
    (e : Block → Block) (d : Bytes) : CipherInv .cStream true ckey (encUpdate e x d).1 where
  short := by simp only [encUpdate, List.length_drop, List.length_append]; omega
  heldDecrypts hv := absurd (h.heldDecrypts hv).1 (by simp)
  heldEmpty := h.heldEmpty
  zero hf := by simp [Fsm.inCipher] at hf
  fresh hf := by simp at hf
  direction hf := by simp at hf

/-- R133: an update in decryption keeps the invariants of a bound context. -/
theorem decUpdate_cipherInv {f : Fsm} {ckey : Key} {x : CipherStream} (h : CipherInv f false ckey x)
    (dec : Block → Block) (d : Bytes) : CipherInv .cStream false ckey (decUpdate dec x d).1 := by
  obtain ⟨hrv, hrh⟩ := releaseHeld_empty h.heldEmpty
  rcases decUpdate_cases dec x d with ⟨-, hbuf, hv, -⟩ | ⟨-, hbuf, hv, hheld, -⟩
  · exact ⟨by simp [hbuf], fun _ => ⟨rfl, rfl, hbuf⟩, by simp [hv], by simp [Fsm.inCipher], by simp, by simp⟩
  · exact ⟨by omega, by simp [hv, hrv], fun _ => hheld.trans hrh, by simp [Fsm.inCipher], by simp, by simp⟩

theorem update_cipherInv {s : State} (h : CipherInv s.fsm s.cdir s.ckey s.stream) (d : Bytes) :
    CipherInv .cStream s.cdir s.ckey (s.update d).1 := by
  unfold State.update
  cases hd : s.cdir <;> rw [hd] at h
  · exact decUpdate_cipherInv h s.dec d
  · exact encUpdate_cipherInv h s.enc d

/-- R101: an update emits at most 1024 bytes: a held block is released only where CBUF is empty. -/
theorem update_length {s : State} (h : CipherInv s.fsm s.cdir s.ckey s.stream) {d : Bytes} (hd : d.length ≤ 1024) :
    (s.update d).2.length ≤ 1024 := by
  have hshort := h.short
  unfold State.update
  split
  · rw [encUpdate_length]; omega
  · have hrel := releaseHeld_length s.stream
    cases hv : s.stream.heldv with
    | false =>
      rw [if_neg (by simp [hv])] at hrel
      rcases decUpdate_cases s.dec s.stream d with ⟨-, -, -, hl⟩ | ⟨-, -, -, -, hl⟩ <;> omega
    | true =>
      rw [if_pos hv] at hrel
      have hbuf : s.stream.cbuf.length = 0 := by simp [(h.heldDecrypts hv).2.2]
      rcases decUpdate_cases s.dec s.stream d with ⟨-, -, -, hl⟩ | ⟨hend, -, -, -, hl⟩ <;> omega

/-! ### The hash context through an update (R161, R172) -/

/-- R161, R172: a chunk absorbed keeps HBUF the last HLEN mod 64 bytes, although HLEN counts modulo 2^61. -/
theorem absorb_hashInv {s : State} (h : HashInv s.fsm s.hs s.hlen s.hbuf s.digest) (hin : s.fsm.inDigest = true)
    (d : Bytes) :
    HashInv .dAccum (absorb d s).hs (absorb d s).hlen (absorb d s).hbuf s.digest where
  short := by simp only [absorb_hbuf, List.length_drop]; omega
  zero hf := by simp [Fsm.inDigest] at hf
  fresh hf := by simp at hf
  length _ := by
    have hlen := h.length hin
    simp only [absorb_hbuf, absorb_hlen, List.length_drop, List.length_append, BitVec.toNat_add, BitVec.toNat_ofNat]
    omega
  digestZero _ := h.digestZero (by rintro hf; simp [hf, Fsm.inDigest] at hin)

/-! ### Each command's own changes keep the invariants of the engine -/

/-- R96, R214: everything is zero in FAULT; CDIR is kept, which R41 allows there. -/
theorem enterFault_engineInv (s : State) : EngineInv (enterFault s) :=
  ⟨keyInv_zero _, cipherInv_empty (by simp), hashInv_zero rfl fun _ => rfl⟩

theorem clearContexts_engineInv (s : State) : EngineInv (clearContexts s) :=
  ⟨keyInv_zero _, cipherInv_empty fun _ => rfl, hashInv_zero rfl fun _ => rfl⟩

theorem resetOf_engineInv (c : Config) : EngineInv (State.resetOf c) :=
  ⟨keyInv_zero _, cipherInv_empty fun _ => rfl, hashInv_zero rfl fun _ => rfl⟩

theorem derive_engineInv {s : State} (h : EngineInv s) (hidle : s.fsm.idle = true) (n : BitVec 11) :
    EngineInv (derive n s) :=
  ⟨⟨fun _ => Fsm.keyed_of_idle hidle, by simp⟩, h.cipher, h.hash⟩

/-- R126: the key material moves into the context, and the hash context and DIGEST are zeroized. -/
theorem bindCipher_engineInv (dir : Bool) (s : State) : EngineInv (bindCipher dir s) where
  key := keyInv_zero _
  cipher := ⟨by simp [State.stream], by simp [State.stream], fun _ => rfl, by simp [Fsm.inCipher],
    fun _ => rfl, by simp⟩
  hash := hashInv_zero rfl fun _ => rfl

/-- The engine's invariants after an update of the cipher context, from those of the streaming part it leaves. -/
theorem advanceStream_engineInv {s : State} (h : EngineInv s) (hin : s.fsm.inCipher = true) {x : CipherStream}
    (hx : CipherInv .cStream s.cdir s.ckey x) : EngineInv (advanceStream x s) :=
  ⟨h.key.of_inCipher hin _, hx, h.hash.of_inCipher hin rfl⟩

/-- R131: the streaming part as it is, in C_STREAM. -/
theorem CipherInv.to_cStream {f : Fsm} {cdir : Bool} {ckey : Key} {x : CipherStream} (h : CipherInv f cdir ckey x) :
    CipherInv .cStream cdir ckey x where
  short := h.short
  heldDecrypts hv := ⟨(h.heldDecrypts hv).1, rfl, (h.heldDecrypts hv).2.2⟩
  heldEmpty := h.heldEmpty
  zero hf := by simp [Fsm.inCipher] at hf
  fresh hf := by simp at hf
  direction hf := by simp at hf

/-- R131: a zero-length update is one that leaves the streaming part as it is. -/
theorem emptyUpdate_engineInv {s : State} (h : EngineInv s) (hin : s.fsm.inCipher = true) :
    EngineInv { s with fsm := .cStream } :=
  advanceStream_engineInv h hin h.cipher.to_cStream

/-- R139: the cipher context is zeroized, CDIR is kept. -/
theorem closeCipher_engineInv {s : State} (h : EngineInv s) (hin : s.fsm.inCipher = true) :
    EngineInv (closeCipher s) :=
  ⟨h.key.of_inCipher hin _, cipherInv_empty (by simp), h.hash.of_inCipher hin rfl⟩

/-- R160: the key material is kept, the cipher context zeroized and the hash context fresh. -/
theorem bindDigest_engineInv {s : State} (h : EngineInv s) : EngineInv (bindDigest s) where
  key := h.key.to_keyed (by simp)
  cipher := cipherInv_empty fun _ => rfl
  hash := ⟨by simp, by simp [Fsm.inDigest], fun _ => ⟨rfl, rfl, rfl⟩, fun _ => rfl, fun _ => rfl⟩

theorem absorb_engineInv {s : State} (h : EngineInv s) (hin : s.fsm.inDigest = true) (d : Bytes) :
    EngineInv (absorb d s) :=
  ⟨h.key.to_keyed (by simp), h.cipher.of_inDigest hin _, absorb_hashInv h.hash hin d⟩

/-- R162: the hash context is zeroized, and DIGEST holds in D_FINAL alone. -/
theorem closeDigest_engineInv {s : State} (h : EngineInv s) (hin : s.fsm.inDigest = true) :
    EngineInv (closeDigest s) :=
  ⟨h.key.to_keyed (by simp), h.cipher.of_inDigest hin _, hashInv_zero rfl (by simp)⟩

/-- R43: the own changes of every command that succeeds keep the invariants of the engine. -/
theorem Change.engineInv {s r : State} {i : Instr} {out : Bytes} (hc : Change s i out r) (h : EngineInv s) :
    EngineInv r := by
  cases hc with
  | clear => exact clearContexts_engineInv s
  | derive n hlen hidle => exact derive_engineInv h hidle n
  | bindCipher dir hidle hkeyv => exact bindCipher_engineInv dir s
  | emptyUpdate hin => exact emptyUpdate_engineInv h hin
  | update n hlen hin hn => exact advanceStream_engineInv h hin (update_cipherInv h.cipher _)
  | encFinal hin hdir => exact closeCipher_engineInv h hin
  | decFinal hin hdir hcbuf hheldv hpad => exact closeCipher_engineInv h hin
  | bindDigest hidle => exact bindDigest_engineInv h
  | absorb n hlen hin => exact absorb_engineInv h hin _
  | closeDigest hin => exact closeDigest_engineInv h hin
  | hex hfsm => exact h

/-- R101: the output of every command that succeeds fits DATA_OUT. -/
theorem Change.output_length {s r : State} {i : Instr} {out : Bytes} (hc : Change s i out r) (h : EngineInv s) :
    out.length ≤ 1024 := by
  cases hc with
  | update n hlen hin hn => exact update_length h.cipher (operand_length_le s n)
  | encFinal hin hdir => simp [Machine.encFinal]
  | decFinal hin hdir hcbuf hheldv hpad => simp [padStrip]; omega
  | closeDigest hin => simp [finalDigest_length]
  | hex hfsm => simp [hexString_length]
  | _ => simp

/-- No command's own changes touch the window. -/
theorem Change.mem {s r : State} {i : Instr} {out : Bytes} (hc : Change s i out r) : r.mem = s.mem := by
  cases hc <;> rfl

/-! ### Every step keeps the invariants -/

/-- R29, R116, R131: the codes a completion gives have legal values; KDF_FAIL and UPDATE_FAIL are never produced. -/
theorem errWord_legal :
    ∀ c ∈ [ErrCode.none, .seq, .badcmd, .badlen, .initFail, .finalLen, .finalPad], errWord c ∈ legalErrcodes := by
  decide

theorem exec_inv {i : Instr} {s t : State} (hs : s.Inv) (h : exec i s = .next t) : t.Inv := by
  obtain ⟨he, hw⟩ := (inv_iff s).mp hs
  rcases exec_cases h with ⟨c, hc, rfl⟩ | ⟨c, hc, rfl⟩ | ⟨out, r, hc, rfl⟩
  · exact complete_inv he hw.memory (errWord_legal c (by simp at hc ⊢; tauto)) (by simp)
  · exact complete_inv (enterFault_engineInv s) hw.memory (errWord_legal c (by simp at hc ⊢; tauto)) (by simp)
  · exact complete_inv (hc.engineInv he) (hc.mem ▸ hw.memory) (errWord_legal _ (by simp)) (hc.output_length he)

theorem engineStep_inv {s t : State} (hs : s.Inv) (h : engineStep s = .next t) : t.Inv := by
  obtain ⟨he, hw⟩ := (inv_iff s).mp hs
  rcases engineStep_cases h with ⟨-, rfl⟩ | ⟨-, rfl⟩ | ⟨-, rfl⟩ | ⟨i, -, -, hi⟩
  · exact hs
  · exact complete_inv he hw.memory (errWord_legal _ (by simp)) (by simp)
  · exact complete_inv he hw.memory (errWord_legal _ (by simp)) (by simp)
  · exact exec_inv hs hi

/-- The invariants say nothing of CMD_OVR and of the model's own turns, response and count of drawn bytes. -/
theorem State.Inv.withOwn {s : State} (hs : s.Inv) (o : Bool) (ts : List Turn) (r : Option Response) (d : Nat) :
    { s with cmdOvr := o, turns := ts, resp := r, draws := d }.Inv := by
  obtain ⟨he, hw⟩ := (inv_iff s).mp hs
  exact (inv_iff _).mpr ⟨⟨he.key, he.cipher, he.hash⟩,
    ⟨hw.memory, hw.outputFits, hw.outputHeld, hw.busyQuiet, hw.errcodeLegal, hw.resetIdle⟩⟩

/-- R90: acceptance, out of reset. -/
theorem accept_inv {s : State} (hs : s.Inv) (hr : s.inReset = false) (w : Word) : (accept w s).Inv := by
  obtain ⟨he, hw⟩ := (inv_iff s).mp hs
  exact (inv_iff _).mpr ⟨⟨he.key, he.cipher, he.hash⟩,
    ⟨hw.memory, by simp, by simp, fun _ => ⟨rfl, rfl⟩, errWord_legal .none (by simp), by simp [hr]⟩⟩

/-- R31: bytes stored in DATA_IN leave DATA_OUT as it was. -/
theorem dataOutByte_writeBytes_dataIn {s : State} {off : Nat} {vs : Bytes} (h : off + vs.length ≤ dataOutOffset)
    (j : Nat) : { s with mem := s.mem.writeBytes off vs }.dataOutByte j = s.dataOutByte j := by
  simp only [State.dataOutByte, read_writeBytes]
  rw [if_neg (by omega)]

/-- R31, R60: bytes stored in DATA_IN. -/
theorem writeDataIn_inv {s : State} (hs : s.Inv) {off : Nat} {vs : Bytes} (h0 : dataInOffset ≤ off)
    (h : off + vs.length ≤ dataOutOffset) : { s with mem := s.mem.writeBytes off vs }.Inv := by
  obtain ⟨he, hw⟩ := (inv_iff s).mp hs
  refine (inv_iff _).mpr ⟨⟨he.key, he.cipher, he.hash⟩, ?_, hw.outputFits, fun hb j hj => ?_, hw.busyQuiet,
    hw.errcodeLegal, hw.resetIdle⟩
  · exact wf_writeBytes hw.memory h0 (h.trans (by decide))
  · rw [dataOutByte_writeBytes_dataIn h]
    exact hw.outputHeld hb j hj

theorem writeWindow_inv {s : State} (hs : s.Inv) (hr : s.inReset = false) {off n : Nat}
    (hl : accessLegal off n = true) (v : Word) : (writeWindow off n v s).Inv := by
  rcases writeWindow_cases off n v s with h | ⟨-, -, h⟩ | ⟨-, -, h⟩ | ⟨h0, h1, h⟩ <;> rw [h]
  · exact hs
  · exact hs.withOwn true _ _ _
  · exact accept_inv hs hr v
  · exact writeDataIn_inv hs h0 (by simpa using accessLegal_inside hl h0 (by decide) h1)

theorem busAccess_inv {s : State} (hs : s.Inv) (a : Access) : (busAccess a s).Inv := by
  rcases busAccess_cases a s with ⟨r, d, h⟩ | ⟨addr, off, n, v, r, -, -, hr, hl, h⟩ <;> rw [h]
  · exact hs.withOwn _ _ r d
  · exact (writeWindow_inv hs hr hl v).withOwn _ _ r _

/-- Settles O16: R45's values are empty contexts, no key material and an idle window. -/
theorem resetMeetsTheInvariants : Obligations.ResetMeetsTheInvariants := by
  unfold Obligations.ResetMeetsTheInvariants
  intro c
  refine (inv_iff _).mpr ⟨resetOf_engineInv c, wf_resetOf c, fun _ => by simp [State.resetOf], fun _ j hj => ?_,
    fun hb => ?_, errWord_legal .none (by simp), fun _ => rfl⟩
  · simp [State.resetOf] at hj
  · simp [State.resetOf] at hb

/-- R235: an edge of reset gives the reset values, and no command is in flight while the input is asserted. -/
theorem applyReset_inv (asserted : Bool) (s : State) : (applyReset asserted s).Inv := by
  obtain ⟨he, hw⟩ := (inv_iff _).mp (resetMeetsTheInvariants s.cfg)
  exact (inv_iff _).mpr ⟨⟨he.key, he.cipher, he.hash⟩,
    ⟨hw.memory, hw.outputFits, hw.outputHeld, hw.busyQuiet, hw.errcodeLegal, fun _ => rfl⟩⟩

/-- Settles O15, turn by turn: a completion by the engine's parts of the invariants, an access by the window's, an edge
of reset by the reset values. -/
theorem everyStepKeepsTheInvariants : Obligations.EveryStepKeepsTheInvariants := by
  unfold Obligations.EveryStepKeepsTheInvariants
  intro s t hs h
  have hturn (ts : List Turn) : { s with turns := ts }.Inv := hs.withOwn _ ts _ _
  rcases step_cases h with ⟨-, he⟩ | ⟨ts, -, he⟩ | ⟨a, ts, -, rfl⟩ | ⟨ts, -, rfl⟩ | ⟨ts, -, -, rfl⟩ | ⟨ts, -, -, rfl⟩
  · exact engineStep_inv hs he
  · exact engineStep_inv (hturn ts) he
  · exact busAccess_inv (hturn ts) a
  · exact applyReset_inv true _
  · exact applyReset_inv false _
  · exact hturn ts

end Sys2Proof.Machine
end

section
/-! PROOF. Turns, reset, the registers, what the host can see, entry to FAULT, and CMD_OVR (spec 10_state.md). -/

namespace Sys2Proof.Machine

/-! ### One turn (R64, R92, R235) -/

/-- With no turn left the engine moves. -/
theorem step_of_nil {s : State} (h : s.turns = []) : step s = engineStep s := by
  simp [step, stepTurns, h]

/-- The first turn of the list is taken. -/
theorem step_of_cons {s : State} {t : Turn} {ts : List Turn} (h : s.turns = t :: ts) :
    step s = takeTurn t { s with turns := ts } := by
  simp [step, stepTurns, h]

/-- Settles O6: the head of the list of turns decides, and an idle engine has no step of its own. -/
theorem stepTakesTheNextTurn : Obligations.StepTakesTheNextTurn := by
  unfold Obligations.StepTakesTheNextTurn
  intro s
  refine ⟨fun a ts h => step_of_cons h, fun ts h hb => ?_, fun ts h => step_of_cons h, fun ts h => step_of_cons h,
    fun h hb => ?_⟩
  · rw [step_of_cons h]
    exact engineStep_idle hb
  · rw [step_of_nil h, engineStep_idle hb]

/-! ### Reset (R45, R235) -/

/-- R25, R45: STATUS reads 0 with the reset values, whatever the parameters. -/
theorem status_resetOf (c : Config) : (State.resetOf c).status = 0 := by
  show State.reset.status = 0
  decide

/-- Settles O20: the state after both edges, field by field, is R45's. -/
theorem resetGivesTheResetValues : Obligations.ResetGivesTheResetValues := by
  unfold Obligations.ResetGivesTheResetValues
  intro s
  have hrelease : takeTurn .resetRelease (applyReset true s) = .next (applyReset false (applyReset true s)) := rfl
  exact ⟨applyReset true s, applyReset false (applyReset true s), rfl, rfl, rfl, hrelease, status_resetOf s.cfg, rfl⟩

/-! ### Host accesses (R27, R59) -/

/-- Settles O18: besides its response an access can only be a write in the window, which is dropped, accepted, stored in
DATA_IN or ignored. -/
theorem hostAccessKeepsTheEngine : Obligations.HostAccessKeepsTheEngine := by
  unfold Obligations.HostAccessKeepsTheEngine
  intro a s
  rcases busAccess_cases a s with ⟨r, d, h⟩ | ⟨addr, off, n, v, r, -, -, -, -, h⟩
  · exact ⟨s.lcmd, s.ldata, s.busy, s.errcode, s.outLen, s.cmdOvr, s.mem, r, d, h⟩
  · rcases writeWindow_cases off n v s with hw | ⟨-, -, hw⟩ | ⟨-, -, hw⟩ | ⟨-, -, hw⟩ <;> rw [hw] at h
    · exact ⟨s.lcmd, s.ldata, s.busy, s.errcode, s.outLen, s.cmdOvr, s.mem, r, s.draws, h⟩
    · exact ⟨s.lcmd, s.ldata, s.busy, s.errcode, s.outLen, true, s.mem, r, s.draws, h⟩
    · exact ⟨v, s.dataIn, true, 0, 0, s.cmdOvr, s.mem, r, s.draws, h⟩
    · exact ⟨s.lcmd, s.ldata, s.busy, s.errcode, s.outLen, s.cmdOvr, s.mem.writeBytes off (lanes v n), r, s.draws, h⟩

/-- A legal read of a register, out of reset (R24, R53). -/
theorem busAccess_read_register {s : State} (hr : s.inReset = false) {off : Nat} (hoff : off < dataInOffset)
    (h4 : off % 4 = 0) :
    busAccess (.read (s.cfg.base + off) 4) s =
      { s with resp := some ⟨s.register off, false⟩, draws := s.draws + 4 } := by
  have hw : windowOffset s.cfg (s.cfg.base + off) = some off := windowOffset_base _ (by simp at hoff ⊢; omega)
  have hl : accessLegal off 4 = true := by simp_all [accessLegal]
  simp [busAccess, hw, hr, hl, State.readWindow, show off < 0x400 from hoff]

/-- Settles O23: each is the read of its register. -/
theorem registerReads : Obligations.RegisterReads := by
  unfold Obligations.RegisterReads
  intro s hr
  refine ⟨busAccess_read_register hr (off := 0) (by simp) rfl, busAccess_read_register hr (by simp) rfl,
    busAccess_read_register hr (by simp) rfl, ?_⟩
  rw [BitVec.ofNat_toNat]
  exact busAccess_read_register hr (off := 12) (by simp) rfl

/-! ### STATUS (R25, R26, R34, R41) -/

/-- Fields side by side, as a number. -/
theorem toNat_append_eq {m n : Nat} (x : BitVec m) (y : BitVec n) :
    (x ++ y).toNat = x.toNat * 2 ^ n + y.toNat := by
  rw [BitVec.toNat_append, ← Nat.shiftLeft_add_eq_or_of_lt y.isLt, Nat.shiftLeft_eq]

/-- R26: ERR says whether ERRCODE's low byte, CODE, is non-zero. -/
theorem errFlag_eq (s : State) : s.errFlag = decide (s.errcode.toNat % 256 ≠ 0) := by
  simp [State.errFlag, State.errByte, BitVec.toNat_eq, BitVec.extractLsb'_toNat]

/-- R41: DIR is CDIR in the three cipher states. -/
theorem dirFlag_eq (s : State) :
    s.dirFlag = (decide (s.fsm = .cInit ∨ s.fsm = .cStream ∨ s.fsm = .cFinal) && s.cdir) := by
  unfold State.dirFlag
  cases s.fsm <;> simp

/-- Settles O22: STATUS is its fields side by side. -/
theorem statusFields : Obligations.StatusFields := by
  unfold Obligations.StatusFields
  intro s
  rw [← errFlag_eq, ← dirFlag_eq]
  simp only [State.status, toNat_append_eq, BitVec.toNat_ofBool, BitVec.toNat_ofNat]
  cases s.fsm <;> simp only [fsmCode, BitVec.reduceToNat] <;> omega

/-! ### What the host can see (R42) -/

@[simp] theorem withHidden_cfg (s h : State) : (s.withHidden h).cfg = s.cfg := rfl
@[simp] theorem withHidden_busy (s h : State) : (s.withHidden h).busy = s.busy := rfl
@[simp] theorem withHidden_inReset (s h : State) : (s.withHidden h).inReset = s.inReset := rfl

/-- R42: a write leaves the visible elements the same, whatever the hidden ones hold. -/
theorem writeWindow_withHidden (off n : Nat) (v : Word) (s h : State) :
    writeWindow off n v (s.withHidden h) = (writeWindow off n v s).withHidden (writeWindow off n v (s.withHidden h)) := by
  simp only [writeWindow]
  cases regionOf off with
  | registers =>
    by_cases h0 : off = 0
    · cases hb : s.busy <;> simp only [h0, hb, withHidden_busy] <;> rfl
    · simp only [h0, if_false]; rfl
  | _ => rfl

/-- R42: an access answers and leaves the visible elements the same, whatever the hidden ones hold. -/
theorem busAccess_withHidden (a : Access) (s h : State) :
    busAccess a (s.withHidden h) = (busAccess a s).withHidden (busAccess a (s.withHidden h)) := by
  cases a with
  | read addr n =>
    simp only [busAccess, withHidden_cfg]
    split
    · rfl
    · cases hr : s.inReset
      · cases hl : accessLegal _ n <;> simp only [hr, withHidden_inReset] <;> rfl
      · simp only [hr, withHidden_inReset]; rfl
  | write addr n v =>
    simp only [busAccess, withHidden_cfg]
    split
    · rfl
    · cases hr : s.inReset
      · cases hl : accessLegal _ n <;> simp only [hr, withHidden_inReset]
        · rfl
        · rw [writeWindow_withHidden]; rfl
      · simp only [hr, withHidden_inReset]; rfl

/-- Settles O33, by induction on the accesses: hidden elements stay hidden through each of them. -/
theorem hiddenStateIsNotReadable : Obligations.HiddenStateIsNotReadable := by
  unfold Obligations.HiddenStateIsNotReadable
  intro as
  induction as with
  | nil => intro s h; rfl
  | cons a as ih =>
    intro s h
    rw [responses, responses, busAccess_withHidden, ih]
    rfl

/-! ### Entry to FAULT (R96, R214) -/

/-- R29, R98: the KIND field of ERRCODE is the kind of the code. -/
theorem errWord_kind (c : ErrCode) : (errWord c).extractLsb' 8 2 = errCodeKind c := by
  cases c <;> decide

theorem complete_errKind (c : ErrCode) (out : Bytes) (s : State) : (complete c out s).errKind = errCodeKind c :=
  errWord_kind c

/-- R98, R211: SEQ and BADLEN are precondition errors. -/
theorem errCodeKind_precondition : ∀ c ∈ [ErrCode.seq, .badlen], errCodeKind c = 1 := by decide

/-- R210, R214: the values of ERRCODE at an entry to FAULT. -/
theorem errWord_crypto :
    ∀ c ∈ [ErrCode.initFail, .finalLen, .finalPad], errWord c ∈ [(0x211 : Word), 0x213, 0x214] := by decide

/-- Settles O10: of the completions only the entries to FAULT have KIND 2, and they emit nothing. -/
theorem cryptoErrorEntersFault : Obligations.CryptoErrorEntersFault := by
  unfold Obligations.CryptoErrorEntersFault
  intro i s t h hk
  rcases exec_cases h with ⟨c, hc, rfl⟩ | ⟨c, hc, rfl⟩ | ⟨out, r, -, rfl⟩
  · rw [complete_errKind, errCodeKind_precondition c hc] at hk
    exact absurd hk (by decide)
  · exact ⟨errWord_crypto c hc, rfl⟩
  · rw [complete_errKind] at hk
    exact absurd hk (by decide)

/-! ### CMD_OVR (R28, R91, R99) -/

/-- R71: the number of a command word from its fields. -/
theorem toNat_eq_fields (w : Word) :
    w.toNat = (opField w).toNat + 16 * (dirField w).toNat + 32 * (res0Field w).toNat + 65536 * (lenField w).toNat
      + 134217728 * (res1Field w).toNat := by
  have hdir : (dirField w).toNat = w.toNat / 16 % 2 := by
    rw [dirField, ← BitVec.testBit_toNat, Nat.toNat_testBit]
  have hw := w.isLt
  simp only [hdir, opField, res0Field, lenField, res1Field, BitVec.extractLsb'_toNat, Nat.shiftRight_eq_div_pow]
  omega

/-- R76: the row of CLEAR is opcode 1. -/
theorem opcodeRow_clear {op : BitVec 4} {dir : Bool} {len : BitVec 11} (h : opcodeRow op dir len = some .clear) :
    op = 1 := by
  unfold opcodeRow at h
  split at h <;> simp_all [BitVec.toNat_eq]

/-- R76, R78: CLEAR has one command word, whose fields but OP are zero. -/
theorem decode_eq_clear {w : Word} (h : decode w = .command .clear) : w = 0x00000001 := by
  unfold decode at h
  split at h
  · cases h
  · rename_i i hrow
    split_ifs at h with hres hdir hlong hlen
    cases h
    have hop := opcodeRow_clear hrow
    rw [hop] at hdir hlen
    simp [takesData] at hres hdir hlen
    apply BitVec.eq_of_toNat_eq
    rw [toNat_eq_fields w, hop, hres.1, hres.2, hdir, hlen]
    rfl

/-- No command but CLEAR touches CMD_OVR by its own changes. -/
theorem Change.cmdOvr {s r : State} {i : Instr} {out : Bytes} (hc : Change s i out r) :
    (i = .clear ∧ r.cmdOvr = false) ∨ r.cmdOvr = s.cmdOvr := by
  cases hc with
  | clear => exact .inl ⟨rfl, rfl⟩
  | _ => exact .inr rfl

/-- R28, R99: the engine's step leaves CMD_OVR as it is, or completes CLEAR and CMD_OVR falls. -/
theorem engineStep_cmdOvr {s t : State} (h : engineStep s = .next t) :
    (s.busy = true ∧ s.lcmd = 0x00000001 ∧ t.cmdOvr = false) ∨ t.cmdOvr = s.cmdOvr := by
  rcases engineStep_cases h with ⟨-, rfl⟩ | ⟨-, rfl⟩ | ⟨-, rfl⟩ | ⟨i, hb, hd, hi⟩
  · exact .inr rfl
  · exact .inr rfl
  · exact .inr rfl
  · rcases exec_cases hi with ⟨c, -, rfl⟩ | ⟨c, -, rfl⟩ | ⟨out, r, hc, rfl⟩
    · exact .inr rfl
    · exact .inr rfl
    · rcases hc.cmdOvr with ⟨rfl, hr⟩ | hr
      · exact .inl ⟨hb, decode_eq_clear hd, hr⟩
      · exact .inr hr

/-- R28, R91: an access leaves CMD_OVR as it is, or is a 32-bit CMD write dropped because BUSY = 1. -/
theorem busAccess_cmdOvr (a : Access) (s : State) :
    (∃ v, a = .write s.cfg.base 4 v ∧ s.busy = true ∧ (busAccess a s).cmdOvr = true) ∨
      (busAccess a s).cmdOvr = s.cmdOvr := by
  rcases busAccess_cases a s with ⟨r, d, h⟩ | ⟨addr, off, n, v, r, rfl, ho, -, hl, h⟩
  · exact .inr (by rw [h])
  · rcases writeWindow_cases off n v s with hw | ⟨rfl, hb, hw⟩ | ⟨-, -, hw⟩ | ⟨-, -, hw⟩
    · exact .inr (by rw [h, hw])
    · have hn : n = 4 := by simpa [accessLegal] using hl
      obtain ⟨rfl, -⟩ := windowOffset_lt ho
      exact .inl ⟨v, by rw [hn, Nat.add_zero], hb, by rw [h, hw]; rfl⟩
    · exact .inr (by rw [h, hw]; rfl)
    · exact .inr (by rw [h, hw])

/-- R91: a CMD write while BUSY = 1, out of reset, is dropped. -/
theorem busAccess_dropped {s : State} (hr : s.inReset = false) (hb : s.busy = true) (v : Word) :
    busAccess (.write s.cfg.base 4 v) s = { dropCommand s with resp := some ⟨0, false⟩ } := by
  have hw : windowOffset s.cfg s.cfg.base = some 0 := windowOffset_base s.cfg (off := 0) (by simp)
  simp [busAccess, hw, hr, accessLegal, writeWindow, regionOf, hb]

/-- The whole of what a step does to CMD_OVR: the engine's turn may complete CLEAR, the host's may be a dropped CMD
write, an edge of reset clears it, and nothing else changes it. -/
theorem step_cmdOvr {s t : State} (h : step s = .next t) :
    (s.busy = true ∧ s.lcmd = 0x00000001 ∧ (s.turns = [] ∨ ∃ ts, s.turns = .engine :: ts) ∧ t.cmdOvr = false) ∨
      (s.busy = true ∧ (∃ v ts, s.turns = .host (.write s.cfg.base 4 v) :: ts) ∧ t.cmdOvr = true) ∨
      (((∃ ts, s.turns = .resetAssert :: ts) ∨ ∃ ts, s.turns = .resetRelease :: ts) ∧ t.cmdOvr = false) ∨
      t.cmdOvr = s.cmdOvr := by
  rcases step_cases h with ⟨hts, he⟩ | ⟨ts, hts, he⟩ | ⟨a, ts, hts, rfl⟩ | ⟨ts, hts, rfl⟩ | ⟨ts, hts, -, rfl⟩ |
    ⟨ts, -, -, rfl⟩
  · rcases engineStep_cmdOvr he with ⟨hb, hw, ho⟩ | ho
    · exact .inl ⟨hb, hw, .inl hts, ho⟩
    · exact .inr (.inr (.inr ho))
  · rcases engineStep_cmdOvr he with ⟨hb, hw, ho⟩ | ho
    · exact .inl ⟨hb, hw, .inr ⟨ts, hts⟩, ho⟩
    · exact .inr (.inr (.inr ho))
  · rcases busAccess_cmdOvr a { s with turns := ts } with ⟨v, rfl, hb, ho⟩ | ho
    · exact .inr (.inl ⟨hb, ⟨v, ts, hts⟩, ho⟩)
    · exact .inr (.inr (.inr ho))
  · exact .inr (.inr (.inl ⟨.inl ⟨ts, hts⟩, rfl⟩))
  · exact .inr (.inr (.inl ⟨.inr ⟨ts, hts⟩, rfl⟩))
  · exact .inr (.inr (.inr rfl))

/-- Settles O12: a dropped write raises CMD_OVR, CLEAR and reset clear it, and no other turn changes it. -/
theorem cmdOvrIsSticky : Obligations.CmdOvrIsSticky := by
  unfold Obligations.CmdOvrIsSticky
  intro s
  refine ⟨fun hr hb v => by rw [busAccess_dropped hr hb]; rfl, fun t h => ?_, fun t h => ?_, fun t h => ?_⟩
  · cases h; rfl
  · cases h; rfl
  · rcases step_cmdOvr h with ⟨hb, hw, hts, ho⟩ | ⟨hb, hwrite, ho⟩ | ⟨hedge, ho⟩ | ho
    · exact ⟨fun _ _ => .inl ⟨hb, hw, hts⟩, fun _ h1 => by simp [ho] at h1⟩
    · exact ⟨fun _ h0 => by simp [ho] at h0, fun _ _ => ⟨hb, hwrite⟩⟩
    · exact ⟨fun _ _ => .inr hedge, fun _ h1 => by simp [ho] at h1⟩
    · exact ⟨fun h1 h0 => by simp_all, fun h0 h1 => by simp_all⟩

end Sys2Proof.Machine
end

section
/-! PROOF. The register window and its accesses, what a completion leaves alone, and waiting (spec 20_memory.md). -/

namespace Sys2Proof.Machine

/-! ### Bus values, the lowest byte first (R53) -/

theorem leNat_lt (l : Bytes) : leNat l < 2 ^ (8 * l.length) := by
  induction l with
  | nil => simp [leNat]
  | cons b l ih =>
    have hb := b.isLt
    rw [leNat, List.length_cons, Nat.mul_succ, Nat.pow_add]
    omega

theorem leNat_append_singleton (l : Bytes) (b : Byte) :
    leNat (l ++ [b]) = leNat l + 2 ^ (8 * l.length) * b.toNat := by
  induction l with
  | nil => simp [leNat]
  | cons c l ih =>
    rw [List.cons_append, leNat, ih, leNat, List.length_cons, Nat.mul_succ, Nat.pow_add]
    ring

theorem leNat_div_mod (l : Bytes) {k : Nat} (hk : k < l.length) : leNat l / 2 ^ (8 * k) % 256 = l[k].toNat := by
  induction l generalizing k with
  | nil => simp at hk
  | cons b l ih =>
    have hb := b.isLt
    cases k with
    | zero => rw [leNat]; simp; omega
    | succ k =>
      have htail : leNat (b :: l) / 256 = leNat l := by rw [leNat]; omega
      rw [Nat.mul_succ, Nat.add_comm, Nat.pow_add, ← Nat.div_div_eq_div_mul, htail, ih (by simpa using hk)]
      rfl

theorem leNat_replicate_zero (n : Nat) : leNat (List.replicate n 0) = 0 := by
  induction n with
  | zero => rfl
  | succ n ih => rw [List.replicate_succ, leNat, ih]; rfl

theorem lane_toNat (v : Word) (i : Nat) : (lane v i).toNat = v.toNat / 2 ^ (8 * i) % 256 := by
  simp [lane, BitVec.extractLsb'_toNat, Nat.shiftRight_eq_div_pow]

/-- The bytes a write puts on the bus spell its low 8·n bits. -/
theorem leNat_lanes (v : Word) (n : Nat) : leNat (lanes v n) = v.toNat % 2 ^ (8 * n) := by
  induction n with
  | zero => simp [lanes, leNat, Nat.mod_one]
  | succ n ih =>
    have hsnoc : lanes v (n + 1) = lanes v n ++ [lane v n] := by simp [lanes, List.range_succ]
    rw [hsnoc, leNat_append_singleton, ih, lanes_length, lane_toNat, Nat.mul_succ, Nat.pow_add, Nat.mod_mul]

/-- R53: bits [8k+7:8k] of a bus value are its byte k. -/
theorem lane_ofNat_leNat {l : Bytes} (hl : l.length ≤ 4) {k : Nat} (hk : k < l.length) :
    (BitVec.ofNat 32 (leNat l)).extractLsb' (8 * k) 8 = l[k] := by
  have h32 : leNat l < 2 ^ 32 := (leNat_lt l).trans_le (Nat.pow_le_pow_right (by decide) (by omega))
  apply BitVec.eq_of_toNat_eq
  rw [← leNat_div_mod l hk, BitVec.extractLsb'_toNat, BitVec.toNat_ofNat, Nat.mod_eq_of_lt h32,
    Nat.shiftRight_eq_div_pow]

/-! ### The map of the window (R52) -/

theorem regionOf_dataIn {off : Nat} (h0 : 0x400 ≤ off) (h1 : off < 0x800) : regionOf off = .dataIn := by
  simp [regionOf, show ¬ off < 0x010 by omega, show ¬ off < 0x400 by omega, h1]

theorem regionOf_dataOut {off : Nat} (h0 : 0x800 ≤ off) (h1 : off < 0xC00) : regionOf off = .dataOut := by
  simp [regionOf, show ¬ off < 0x010 by omega, show ¬ off < 0x400 by omega, show ¬ off < 0x800 by omega, h1]

theorem regionOf_above {off : Nat} (h : 0xC00 ≤ off) : regionOf off = .reserved := by
  simp [regionOf, show ¬ off < 0x010 by omega, show ¬ off < 0x400 by omega, show ¬ off < 0x800 by omega,
    show ¬ off < 0xC00 by omega]

/-! ### Legal and illegal accesses in the window (R51, R55, R56) -/

theorem windowOffset_eq_none {c : Config} {addr : Nat} (h : addr < c.base ∨ c.base + 4096 ≤ addr) :
    windowOffset c addr = none := by
  simp [windowOffset]; omega

/-- R55, written out. -/
theorem accessLegal_iff (off n : Nat) :
    accessLegal off n = true ↔ (off < 0x400 ∧ n = 4 ∧ off % 4 = 0) ∨
      (0x400 ≤ off ∧ (n = 1 ∨ (n = 2 ∧ off % 2 = 0) ∨ (n = 4 ∧ off % 4 = 0))) := by
  by_cases h : off < 0x400 <;> simp [accessLegal, h, or_assoc]; omega

section
variable {s : State} {off n : Nat}

theorem busAccess_read_legal (hr : s.inReset = false) (hoff : off < windowBytes) (hl : accessLegal off n = true) :
    busAccess (.read (s.cfg.base + off) n) s =
      { s with resp := some ⟨s.readWindow off n, false⟩, draws := s.draws + n } := by
  simp [busAccess, windowOffset_base _ hoff, hr, hl]

theorem busAccess_write_legal (hr : s.inReset = false) (hoff : off < windowBytes) (hl : accessLegal off n = true)
    (v : Word) :
    busAccess (.write (s.cfg.base + off) n v) s = { writeWindow off n v s with resp := some ⟨0, false⟩ } := by
  simp [busAccess, windowOffset_base _ hoff, hr, hl]

theorem busAccess_read_illegal (hr : s.inReset = false) (hoff : off < windowBytes)
    (hl : ¬ accessLegal off n = true) :
    busAccess (.read (s.cfg.base + off) n) s = { s with resp := some ⟨0, true⟩ } := by
  simp [busAccess, windowOffset_base _ hoff, hr, hl]

theorem busAccess_write_illegal (hr : s.inReset = false) (hoff : off < windowBytes)
    (hl : ¬ accessLegal off n = true) (v : Word) :
    busAccess (.write (s.cfg.base + off) n v) s = { s with resp := some ⟨0, true⟩ } := by
  simp [busAccess, windowOffset_base _ hoff, hr, hl]

end

/-! ### What a write in the window does (R57, R58, R60) -/

theorem writeWindow_dataIn {off : Nat} (h0 : 0x400 ≤ off) (h1 : off < 0x800) (n : Nat) (v : Word) (s : State) :
    writeWindow off n v s = { s with mem := s.mem.writeBytes off (lanes v n) } := by
  simp [writeWindow, regionOf_dataIn h0 h1]

/-- R57, R58: only CMD and DATA_IN take a write. -/
theorem writeWindow_ignored {off : Nat} (h0 : off ≠ 0) (h1 : off < 0x400 ∨ 0x800 ≤ off) (n : Nat) (v : Word)
    (s : State) : writeWindow off n v s = s := by
  rcases writeWindow_cases off n v s with h | ⟨hcmd, -, -⟩ | ⟨hcmd, -, -⟩ | ⟨hlow, hhigh, -⟩
  · exact h
  · exact absurd hcmd h0
  · exact absurd hcmd h0
  · omega

/-! ### What a read in the window finds (R57, R60, R61) -/

theorem register_reserved (s : State) {off : Nat} (h : 0x010 ≤ off) : s.register off = 0 := by
  unfold State.register
  split
  · rfl
  · omega
  · omega
  · omega
  · rfl

theorem bufferByte_dataIn (s : State) (draw : Nat) {off : Nat} (h0 : 0x400 ≤ off) (h1 : off < 0x800) :
    s.bufferByte draw off = s.dataInByte (off - 0x400) := by
  simp [State.bufferByte, regionOf_dataIn h0 h1]

theorem bufferByte_above (s : State) (draw : Nat) {off : Nat} (h : 0xC00 ≤ off) : s.bufferByte draw off = 0 := by
  simp [State.bufferByte, regionOf_above h]

/-- R61: a byte of DATA_OUT is unspecified while BUSY = 1 and at or above OUT_LEN. -/
theorem bufferByte_dataOut_free {s : State} {j : Nat} (draw : Nat) (hj : j < 1024)
    (h : s.busy = true ∨ s.outLen.toNat ≤ j) : s.bufferByte draw (0x800 + j) = Config.freeByte draw := by
  simp [State.bufferByte, regionOf_dataOut (off := 0x800 + j) (by omega) (by omega), h]

/-- R61: below OUT_LEN, while BUSY = 0, a byte of DATA_OUT is what the last completion stored. -/
theorem bufferByte_dataOut_stored {s : State} {j : Nat} {b : Byte} (draw : Nat) (hj : j < 1024) (hb : s.busy = false)
    (hlen : j < s.outLen.toNat) (h : s.dataOutByte j = some b) : s.bufferByte draw (0x800 + j) = b := by
  simp [State.bufferByte, regionOf_dataOut (off := 0x800 + j) (by omega) (by omega), hb, h,
    show ¬ s.outLen.toNat ≤ j by omega]

theorem readWindow_register (s : State) {off : Nat} (h : off < 0x400) (n : Nat) :
    s.readWindow off n = s.register off := by
  simp [State.readWindow, h]

theorem readWindow_buffer (s : State) {off : Nat} (h : 0x400 ≤ off) (n : Nat) :
    s.readWindow off n =
      BitVec.ofNat 32 (leNat ((List.range n).map fun k => s.bufferByte (s.draws + k) (off + k))) := by
  simp [State.readWindow, show ¬ off < 0x400 by omega]

/-- R60: a read that stays in DATA_IN returns its bytes. -/
theorem readWindow_dataIn (s : State) {i n : Nat} (h : i + n ≤ 1024) :
    s.readWindow (0x400 + i) n = BitVec.ofNat 32 (leNat ((List.range n).map fun k => s.dataInByte (i + k))) := by
  rw [readWindow_buffer s (by omega)]
  congr 2
  refine List.map_congr_left fun k hk => ?_
  have hk : k < n := List.mem_range.mp hk
  rw [bufferByte_dataIn s _ (by omega) (by omega), show 0x400 + i + k - 0x400 = i + k by omega]

/-- R57: below DATA_IN and above DATA_OUT the reserved offsets read as zero. -/
theorem readWindow_reserved (s : State) {off : Nat} (h : (0x010 ≤ off ∧ off < 0x400) ∨ 0xC00 ≤ off) (n : Nat) :
    s.readWindow off n = 0 := by
  rcases h with ⟨h0, h1⟩ | h
  · rw [readWindow_register s h1, register_reserved s h0]
  · have hzero : ((List.range n).map fun k => s.bufferByte (s.draws + k) (off + k)) = List.replicate n 0 :=
      List.eq_replicate_iff.mpr ⟨by simp, by
        simp only [List.mem_map]
        rintro b ⟨k, -, rfl⟩
        exact bufferByte_above s _ (by omega)⟩
    rw [readWindow_buffer s (by omega), hzero, leNat_replicate_zero]
    rfl

/-! ### The record of a read: the response and the count of drawn bytes (R59) -/

/-- The state with the model's record of a read replaced: the response to the host and the count of drawn bytes. -/
def State.withRead (s : State) (r : Option Response) (d : Nat) : State := { s with resp := r, draws := d }

@[simp] theorem withRead_cfg (s : State) (r : Option Response) (d : Nat) : (s.withRead r d).cfg = s.cfg := rfl
@[simp] theorem withRead_busy (s : State) (r : Option Response) (d : Nat) : (s.withRead r d).busy = s.busy := rfl
@[simp] theorem withRead_lcmd (s : State) (r : Option Response) (d : Nat) : (s.withRead r d).lcmd = s.lcmd := rfl
@[simp] theorem withRead_inReset (s : State) (r : Option Response) (d : Nat) :
    (s.withRead r d).inReset = s.inReset := rfl
@[simp] theorem withRead_resp (s : State) (r : Option Response) (d : Nat) : (s.withRead r d).resp = r := rfl
@[simp] theorem withRead_draws (s : State) (r : Option Response) (d : Nat) : (s.withRead r d).draws = d := rfl
@[simp] theorem withRead_status (s : State) (r : Option Response) (d : Nat) :
    (s.withRead r d).status = s.status := rfl
@[simp] theorem withRead_withRead (s : State) (r q : Option Response) (d e : Nat) :
    (s.withRead r d).withRead q e = s.withRead q e := rfl

/-- R59: a read leaves the engine alone. It answers the same whatever the record of reads is, or it is a legal read
out of reset and answers what the window holds. -/
theorem busAccess_read_cases (addr n : Nat) (s : State) :
    (∃ a, ∀ r d, busAccess (.read addr n) (s.withRead r d) = s.withRead a d) ∨
      ∃ off, windowOffset s.cfg addr = some off ∧ accessLegal off n = true ∧
        ∀ r d, busAccess (.read addr n) (s.withRead r d) =
          s.withRead (some ⟨(s.withRead r d).readWindow off n, false⟩) (d + n) := by
  cases hw : windowOffset s.cfg addr with
  | none => exact .inl ⟨none, fun r d => by simp [busAccess, hw, State.withRead]⟩
  | some off =>
    cases hr : s.inReset with
    | true => exact .inl ⟨some ⟨0, false⟩, fun r d => by simp [busAccess, hw, hr, State.withRead]⟩
    | false =>
      cases hl : accessLegal off n with
      | false => exact .inl ⟨some ⟨0, true⟩, fun r d => by simp [busAccess, hw, hr, hl, State.withRead]⟩
      | true => exact .inr ⟨off, rfl, hl, fun r d => by simp [busAccess, hw, hr, hl, State.withRead]⟩

/-- R59: outside DATA_OUT what a legal read finds does not depend on the reads before it. -/
theorem readWindow_withRead (s : State) (r : Option Response) (d : Nat) {off n : Nat}
    (hl : accessLegal off n = true) (h : off < 0x800 ∨ 0xC00 ≤ off) :
    (s.withRead r d).readWindow off n = s.readWindow off n := by
  rcases h with h | h
  · by_cases h0 : off < 0x400
    · rw [readWindow_register _ h0, readWindow_register _ h0]
      rfl
    · have hin : off + n ≤ 0x800 := accessLegal_inside hl (by omega) (by decide) h
      obtain ⟨i, rfl⟩ := Nat.exists_eq_add_of_le (Nat.le_of_not_lt h0)
      rw [readWindow_dataIn _ (by omega), readWindow_dataIn _ (by omega)]
      rfl
  · rw [readWindow_reserved _ (.inr h), readWindow_reserved _ (.inr h)]

/-- R59: outside DATA_OUT the same read again gets the same response. -/
theorem busAccess_read_again {s : State} {addr n : Nat} (h : addr < s.cfg.base + 0x800 ∨ s.cfg.base + 0xC00 ≤ addr) :
    (busAccess (.read addr n) (busAccess (.read addr n) s)).resp = (busAccess (.read addr n) s).resp := by
  rcases busAccess_read_cases addr n s with ⟨a, ha⟩ | ⟨off, hw, hl, ha⟩
  · have hfirst : busAccess (.read addr n) s = s.withRead a s.draws := ha s.resp s.draws
    rw [hfirst, ha]
  · obtain ⟨rfl, -⟩ := windowOffset_lt hw
    have hout : off < 0x800 ∨ 0xC00 ≤ off := by omega
    have hfirst : busAccess (.read (s.cfg.base + off) n) s =
        s.withRead (some ⟨s.readWindow off n, false⟩) (s.draws + n) := ha s.resp s.draws
    rw [hfirst, ha, readWindow_withRead s _ _ hl hout, withRead_resp, withRead_resp]

/-! ### The statements on one access -/

/-- Settles O24: an address outside the window has no offset. -/
theorem outsideTheWindowNothingHappens : Obligations.OutsideTheWindowNothingHappens := by
  unfold Obligations.OutsideTheWindowNothingHappens
  intro s addr n v
  refine ⟨⟨s.cfg.basePage, rfl⟩, fun off hoff => windowOffset_base s.cfg hoff, fun h => ?_⟩
  have hw := windowOffset_eq_none h
  exact ⟨by simp [busAccess, hw], by simp [busAccess, hw]⟩

/-- Settles O25: R55's condition is the one the bus tests. -/
theorem illegalAccessesGetABusError : Obligations.IllegalAccessesGetABusError := by
  unfold Obligations.IllegalAccessesGetABusError
  intro s off n v hr hoff legal
  have hlegal : accessLegal off n = true ↔ legal := accessLegal_iff off n
  refine ⟨fun h => ⟨s.readWindow off n, ?_⟩, fun h => ?_, fun h => ⟨?_, ?_⟩⟩
  · rw [busAccess_read_legal hr hoff (hlegal.mpr h)]
  · rw [busAccess_write_legal hr hoff (hlegal.mpr h)]
  · exact busAccess_read_illegal hr hoff (mt hlegal.mp h)
  · exact busAccess_write_illegal hr hoff (mt hlegal.mp h) v

/-- Settles O26: no register, no buffer byte and no effect of a write lies at a reserved offset. -/
theorem reservedOffsetsReadZero : Obligations.ReservedOffsetsReadZero := by
  unfold Obligations.ReservedOffsetsReadZero
  intro s off n v hr hres hl
  have hoff : off < windowBytes := by simp; omega
  constructor
  · rw [busAccess_read_legal hr hoff hl, readWindow_reserved s (by omega)]
  · rw [busAccess_write_legal hr hoff hl, writeWindow_ignored (by omega) (by omega)]

/-- Settles O27: STATUS, ERRCODE, OUT_LEN and DATA_OUT lie where the window ignores writes. -/
theorem readOnlyOffsetsIgnoreWrites : Obligations.ReadOnlyOffsetsIgnoreWrites := by
  unfold Obligations.ReadOnlyOffsetsIgnoreWrites
  intro s off n v hr
  refine ⟨fun hro hl => ?_, ?_⟩
  · rw [busAccess_write_legal hr (by simp; omega) hl, writeWindow_ignored (by omega) (by omega)]
  · rw [(registerReads s hr).1]

/-- Settles O28: what the write stores, seen byte by byte and through the read of the same size. -/
theorem dataInHoldsWhatIsWritten : Obligations.DataInHoldsWhatIsWritten := by
  unfold Obligations.DataInHoldsWhatIsWritten
  intro s i n v hr hi hl t
  have hoff : 0x400 + i < windowBytes := by simp; omega
  have ht : t = { s with mem := s.mem.writeBytes (0x400 + i) (lanes v n), resp := some ⟨0, false⟩ } := by
    rw [show t = _ from busAccess_write_legal hr hoff hl v, writeWindow_dataIn (by omega) (by omega)]
  have hread (a : Nat) : t.mem.read a =
      if 0x400 + i ≤ a ∧ a < 0x400 + i + n then (lanes v n)[a - (0x400 + i)]? else s.mem.read a := by
    rw [ht, read_writeBytes, lanes_length]
  have hbyte (k : Nat) (hk : k < n) : t.dataInByte (i + k) = lane v k := by
    rw [State.dataInByte, hread, if_pos (by simp; omega), show dataInOffset + (i + k) - (0x400 + i) = k by simp; omega]
    simp [lanes, hk]
  have hin : i + n ≤ 1024 := by
    have := accessLegal_inside hl (k := 0x800) (by omega) (by decide) (by omega)
    omega
  refine ⟨hbyte, fun a ha => by rw [hread, if_neg (by omega)], by rw [ht], ?_⟩
  have hlanes : ((List.range n).map fun k => t.dataInByte (i + k)) = lanes v n :=
    List.map_congr_left fun k hk => hbyte k (List.mem_range.mp hk)
  have hcfg : s.cfg = t.cfg := by rw [ht]
  rw [hcfg, busAccess_read_legal (by rw [ht]; exact hr) hoff hl, readWindow_dataIn t hin, hlanes, leNat_lanes]

/-- Settles O29: the value of the read has one byte of the window in each lane. -/
theorem dataOutReads : Obligations.DataOutReads := by
  unfold Obligations.DataOutReads
  intro s i n hr hi hl
  have hin : i + n ≤ 1024 := by
    have := accessLegal_inside hl (k := 0xC00) (by omega) (by decide) (by omega)
    omega
  have hn : n ≤ 4 := by have := accessLegal_size hl; omega
  refine ⟨s.readWindow (0x800 + i) n, busAccess_read_legal hr (by simp; omega) hl, ?_, fun k hk => ?_⟩
  · rw [readWindow_buffer s (by omega), BitVec.toNat_ofNat]
    exact (Nat.mod_le _ _).trans_lt (by simpa using leNat_lt ((List.range n).map _))
  · have hlane : (s.readWindow (0x800 + i) n).extractLsb' (8 * k) 8 = s.bufferByte (s.draws + k) (0x800 + (i + k)) := by
      rw [readWindow_buffer s (by omega), lane_ofNat_leNat (by simpa using hn) (by simpa using hk)]
      simp [Nat.add_assoc]
    rw [hlane]
    exact ⟨fun hb hlen b h => bufferByte_dataOut_stored _ (by omega) hb hlen h,
      fun hfree => bufferByte_dataOut_free _ (by omega) hfree⟩

/-- Settles O30: a read changes only the record of reads, and that record decides nothing outside DATA_OUT. -/
theorem readsHaveNoSideEffect : Obligations.ReadsHaveNoSideEffect := by
  unfold Obligations.ReadsHaveNoSideEffect
  intro s addr n t
  refine ⟨?_, busAccess_read_again⟩
  rcases busAccess_read_cases addr n s with ⟨a, ha⟩ | ⟨off, -, -, ha⟩
  · rw [show t = _ from ha s.resp s.draws]; rfl
  · rw [show t = _ from ha s.resp s.draws]; rfl

/-! ### What a completion leaves alone (R60, R100) -/

/-- No command's own changes touch the reset input, the count of drawn bytes and the reset epoch. -/
theorem Change.frame {s r : State} {i : Instr} {out : Bytes} (hc : Change s i out r) :
    r.inReset = s.inReset ∧ r.draws = s.draws ∧ r.epoch = s.epoch := by
  cases hc <;> exact ⟨rfl, rfl, rfl⟩

/-- R60: a completion stores from DATA_OUT on. -/
theorem complete_dataInByte (c : ErrCode) (out : Bytes) (s : State) {k : Nat} (hk : k < 1024) :
    (complete c out s).dataInByte k = s.dataInByte k := by
  rw [State.dataInByte, complete_read_outside c out s _ (.inl (by simp; omega)), complete_epoch, State.dataInByte]

/-- DATA_IN is the window's storage and the reset epoch. -/
theorem dataInByte_congr {s t : State} (hm : t.mem = s.mem) (he : t.epoch = s.epoch) (k : Nat) :
    t.dataInByte k = s.dataInByte k := by
  rw [State.dataInByte, State.dataInByte, hm, he]

/-- Settles O19: of the three kinds of completion none stores below DATA_OUT. -/
theorem commandsKeepDataIn : Obligations.CommandsKeepDataIn := by
  unfold Obligations.CommandsKeepDataIn
  intro i s t h k hk
  rcases exec_cases h with ⟨c, -, rfl⟩ | ⟨c, -, rfl⟩ | ⟨out, r, hc, rfl⟩
  · exact complete_dataInByte c [] s hk
  · exact (complete_dataInByte c [] (enterFault s) hk).trans
      (dataInByte_congr (enterFault_mem s) (enterFault_epoch s) k)
  · obtain ⟨-, -, hepoch⟩ := hc.frame
    exact (complete_dataInByte .none out r hk).trans (dataInByte_congr hc.mem hepoch k)

/-! ### Every command completes (R100) -/

/-- A rule ends in a state, and in the same one whatever the host has read before (R59). -/
def Completes (rule : State → Host.Outcome State Fault Refusal) (s : State) : Prop :=
  ∃ t, rule s = .next t ∧ ∀ r d, rule (s.withRead r d) = .next (t.withRead r d)

section
variable {s : State} {f g : State → Host.Outcome State Fault Refusal}

/-- A state that the record of reads passes through. -/
theorem completes_next {k : State → State} (hk : ∀ r d, k (s.withRead r d) = (k s).withRead r d) :
    Completes (fun s => .next (k s)) s :=
  ⟨k s, rfl, fun r d => by simp only [hk]⟩

theorem completes_ite {p : State → Prop} [DecidablePred p] (hp : ∀ r d, p (s.withRead r d) ↔ p s)
    (hf : Completes f s) (hg : Completes g s) : Completes (fun s => if p s then f s else g s) s := by
  obtain ⟨t, ht, htr⟩ := hf
  obtain ⟨u, hu, hur⟩ := hg
  by_cases h : p s
  · exact ⟨t, by simp only [h, if_true, ht], fun r d => by simp only [hp, h, if_true, htr]⟩
  · exact ⟨u, by simp only [h, if_false, hu], fun r d => by simp only [hp, h, if_false, hur]⟩

/-- The checks of LEN and STATE stop nothing. -/
theorem completes_checked (lenOk : Bool) (legal : Fsm → Bool) (hf : Completes f s) :
    Completes (fun s => checked lenOk (legal s.fsm) s f) s :=
  completes_ite (fun _ _ => Iff.rfl) (completes_ite (fun _ _ => Iff.rfl) hf (completes_next fun _ _ => rfl))
    (completes_next fun _ _ => rfl)

end

/-- R100: every command has an outcome in every state. -/
theorem exec_completes (i : Instr) (s : State) : Completes (exec i) s := by
  cases i with
  | clear => exact completes_next fun _ _ => rfl
  | kdf n => exact completes_checked (lenLegal n) Fsm.idle (completes_next fun _ _ => rfl)
  | cipherInit dir =>
    exact completes_checked true Fsm.idle
      (completes_ite (fun _ _ => Iff.rfl) (completes_next fun _ _ => rfl) (completes_next fun _ _ => rfl))
  | cipherUpdate n =>
    exact completes_checked (lenLegal n) Fsm.inCipher
      (completes_ite (fun _ _ => Iff.rfl) (completes_next fun _ _ => rfl) (completes_next fun _ _ => rfl))
  | cipherFinal =>
    exact completes_checked true Fsm.inCipher
      (completes_ite (fun _ _ => Iff.rfl) (completes_next fun _ _ => rfl)
        (completes_ite (fun _ _ => Iff.rfl) (completes_next fun _ _ => rfl)
          (completes_ite (fun _ _ => Iff.rfl) (completes_next fun _ _ => rfl) (completes_next fun _ _ => rfl))))
  | digestInit => exact completes_checked true Fsm.idle (completes_next fun _ _ => rfl)
  | digestUpdate n => exact completes_checked (lenLegal n) Fsm.inDigest (completes_next fun _ _ => rfl)
  | digestFinal => exact completes_checked true Fsm.inDigest (completes_next fun _ _ => rfl)
  | hex => exact completes_checked true Fsm.digestReady (completes_next fun _ _ => rfl)

/-- R92, R100: the engine's step ends, on an idle engine, with an illegal word and with a command. -/
theorem engineStep_completes (s : State) : Completes engineStep s := by
  refine completes_ite (fun _ _ => Iff.rfl) ?_ (completes_next fun _ _ => rfl)
  cases hd : decode s.lcmd with
  | badcmd => exact ⟨complete .badcmd [] s, by simp only [hd]; rfl, fun r d => by simp only [withRead_lcmd, hd]; rfl⟩
  | badlen => exact ⟨complete .badlen [] s, by simp only [hd]; rfl, fun r d => by simp only [withRead_lcmd, hd]; rfl⟩
  | command i =>
    obtain ⟨t, ht, htr⟩ := exec_completes i s
    exact ⟨t, by simp only [hd, ht], fun r d => by simp only [withRead_lcmd, hd, htr]⟩

theorem engineStep_next (s : State) : ∃ t, engineStep s = .next t := by
  obtain ⟨t, ht, -⟩ := engineStep_completes s
  exact ⟨t, ht⟩

/-- R59, R65: the engine's step does the same whatever the host has read. -/
theorem engineStep_withRead {s t : State} (h : engineStep s = .next t) (r : Option Response) (d : Nat) :
    engineStep (s.withRead r d) = .next (t.withRead r d) := by
  obtain ⟨u, hu, hur⟩ := engineStep_completes s
  cases hu.symm.trans h
  exact hur r d

theorem takeTurn_next (u : Turn) (s : State) : ∃ t, takeTurn u s = .next t := by
  cases u with
  | engine => exact engineStep_next s
  | host a => exact ⟨_, rfl⟩
  | resetAssert => exact ⟨_, rfl⟩
  | resetRelease => exact ⟨_, rfl⟩

/-- Settles O13: of the turns only the engine's could stop the machine, and every command completes. -/
theorem everyStateHasANextState : Obligations.EveryStateHasANextState := by
  unfold Obligations.EveryStateHasANextState
  intro s
  cases hts : s.turns with
  | nil =>
    rw [step_of_nil hts]
    exact engineStep_next s
  | cons u ts =>
    rw [step_of_cons hts]
    exact takeTurn_next u _

/-! ### Waiting (R65, R82, R92) -/

/-- R92: after the engine's step no command is in flight. -/
theorem engineStep_busy {s t : State} (h : engineStep s = .next t) : t.busy = false := by
  rcases engineStep_cases h with ⟨hb, rfl⟩ | ⟨-, rfl⟩ | ⟨-, rfl⟩ | ⟨i, -, -, hi⟩
  · exact hb
  · rfl
  · rfl
  · rcases exec_cases hi with ⟨c, -, rfl⟩ | ⟨c, -, rfl⟩ | ⟨out, r, -, rfl⟩ <;> rfl

theorem engineStep_frame {s t : State} (h : engineStep s = .next t) : t.inReset = s.inReset ∧ t.draws = s.draws := by
  rcases engineStep_cases h with ⟨-, rfl⟩ | ⟨-, rfl⟩ | ⟨-, rfl⟩ | ⟨i, -, -, hi⟩
  · exact ⟨rfl, rfl⟩
  · exact ⟨rfl, rfl⟩
  · exact ⟨rfl, rfl⟩
  · rcases exec_cases hi with ⟨c, -, rfl⟩ | ⟨c, -, rfl⟩ | ⟨out, r, hc, rfl⟩
    · exact ⟨rfl, rfl⟩
    · exact ⟨rfl, rfl⟩
    · obtain ⟨hreset, hdraws, -⟩ := hc.frame
      exact ⟨hreset, hdraws⟩

/-- R25: bit 0 of STATUS is BUSY. -/
theorem status_bit_zero (s : State) : s.status.getLsbD 0 = s.busy := by
  rw [State.status, BitVec.getLsbD_append]
  simp

/-- R82: one poll. -/
theorem hostRead_status {s : State} (hr : s.inReset = false) :
    hostRead 0x004 4 s = s.withRead (some ⟨s.status, false⟩) (s.draws + 4) :=
  busAccess_read_register hr (by simp) rfl

/-- R82: a poll that reads BUSY = 1 is followed by the next one, and one that reads BUSY = 0 is the last. -/
theorem hostWait_succ {s : State} (hr : s.inReset = false) (polls : Nat) :
    hostWait (polls + 1) s = if s.busy = true then hostWait polls (s.withRead (some ⟨s.status, false⟩) (s.draws + 4))
      else .next (s.withRead (some ⟨s.status, false⟩) (s.draws + 4)) := by
  rw [← status_bit_zero s, ← hostRead_status hr, hostWait, hostRead_status hr]
  rfl

/-- R82: waiting for an idle engine is one poll. -/
theorem hostWait_of_idle {s : State} (hr : s.inReset = false) (hb : s.busy = false) (polls : Nat) :
    hostWait polls s = .next (s.withRead (some ⟨s.status, false⟩) (s.draws + 4)) := by
  cases polls with
  | zero => simp [hostWait, andThen, engineStep_idle hb, hostRead_status hr]
  | succ polls => rw [hostWait_succ hr, hb, if_neg (by decide)]

/-- R65, R92: while the engine is busy each poll reads BUSY = 1, and the poll after its step reads the completion. -/
theorem hostWait_of_busy {s u : State} (hr : s.inReset = false) (hb : s.busy = true) (h : engineStep s = .next u)
    (polls : Nat) :
    hostWait polls s = .next (u.withRead (some ⟨u.status, false⟩) (s.draws + 4 * (polls + 1))) := by
  induction polls generalizing s u with
  | zero =>
    obtain ⟨hreset, hdraws⟩ := engineStep_frame h
    simp [hostWait, andThen, h, hostRead_status (hreset.trans hr), hdraws]
  | succ polls ih =>
    rw [hostWait_succ hr, if_pos hb,
      ih (s := s.withRead (some ⟨s.status, false⟩) (s.draws + 4)) hr hb (engineStep_withRead h _ _)]
    simp only [withRead_withRead, withRead_status, withRead_draws]
    congr 2
    omega

/-- Settles O34: an idle engine ends the wait at the first poll, a busy one by its completion. -/
theorem waitingEndsWithTheCompletion : Obligations.WaitingEndsWithTheCompletion := by
  unfold Obligations.WaitingEndsWithTheCompletion
  intro polls s hr
  obtain ⟨u, hu⟩ := engineStep_next s
  refine ⟨u, hu, engineStep_busy hu, ?_⟩
  cases hb : s.busy with
  | false =>
    have hus : s = u := by simpa [engineStep_idle hb] using hu
    rw [hostWait_of_idle hr hb, ← hus]
    rfl
  | true =>
    rw [hostWait_of_busy hr hb hu]
    rfl

end Sys2Proof.Machine
end

section
/-! PROOF. The command word: its fields, what encoding puts in them, what decoding asks of them, and the table of
selecting patterns (spec 30_encoding.md). -/

namespace Sys2Proof

open Sys2Proof.Machine

/-! ### The fields of a word (R71) -/

theorem opField_toNat (w : Word) : (opField w).toNat = w.toNat % 16 := by
  simp [opField, BitVec.extractLsb'_toNat]

theorem dirField_eq (w : Word) : dirField w = decide (w.toNat / 16 % 2 = 1) := by
  simp [dirField, BitVec.getLsbD, Nat.testBit_eq_decide_div_mod_eq]

theorem res0Field_toNat (w : Word) : (res0Field w).toNat = w.toNat / 32 % 2048 := by
  simp [res0Field, BitVec.extractLsb'_toNat, Nat.shiftRight_eq_div_pow]

theorem lenField_toNat (w : Word) : (lenField w).toNat = w.toNat / 65536 % 2048 := by
  simp [lenField, BitVec.extractLsb'_toNat, Nat.shiftRight_eq_div_pow]

theorem res1Field_toNat (w : Word) : (res1Field w).toNat = w.toNat / 134217728 := by
  have hw := w.isLt
  simp only [res1Field, BitVec.extractLsb'_toNat, Nat.shiftRight_eq_div_pow]
  omega

/-- R71: a command word as a number. -/
theorem commandWord_toNat (op : BitVec 4) (dir : Bool) (len : BitVec 11) :
    (commandWord op dir len).toNat = len.toNat * 65536 + dir.toNat * 16 + op.toNat := by
  simp only [commandWord, toNat_append_eq, BitVec.toNat_ofBool, BitVec.toNat_ofNat]
  omega

/-- R71, R75: the command word of three fields is the word with these fields and zero in the reserved ones. -/
theorem commandWord_eq_iff (op : BitVec 4) (dir : Bool) (len : BitVec 11) (w : Word) :
    commandWord op dir len = w ↔
      opField w = op ∧ dirField w = dir ∧ lenField w = len ∧ res0Field w = 0 ∧ res1Field w = 0 := by
  have hop := op.isLt
  have hlen := len.isLt
  have hw := w.isLt
  simp only [BitVec.toNat_eq, opField_toNat, dirField_eq, lenField_toNat, res0Field_toNat, res1Field_toNat,
    commandWord_toNat]
  cases dir <;> simp <;> omega

/-! ### The fields of a command (R71, R76) -/

/-- R72, R76: the opcode of a command. -/
def Instr.op : Instr → BitVec 4
  | .clear => 0x1
  | .kdf _ => 0x2
  | .cipherInit _ => 0x3
  | .cipherUpdate _ => 0x4
  | .cipherFinal => 0x5
  | .digestInit => 0x6
  | .digestUpdate _ => 0x7
  | .digestFinal => 0x8
  | .hex => 0x9

/-- R73, R76: the DIR bit of a command, 0 where its row has none. -/
def Instr.dir : Instr → Bool
  | .cipherInit dir => dir
  | _ => false

/-- R74, R76: the LEN of a command, 0 where its row has none. -/
def Instr.len : Instr → BitVec 11
  | .kdf len => len
  | .cipherUpdate len => len
  | .digestUpdate len => len
  | _ => 0

theorem encode_eq (i : Instr) : encode i = commandWord i.op i.dir i.len := by
  cases i <;> rfl

theorem wf_eq (i : Instr) : i.wf = lenLegal i.len := by
  cases i <;> rfl

theorem encode_eq_iff (i : Instr) (w : Word) :
    encode i = w ↔
      opField w = i.op ∧ dirField w = i.dir ∧ lenField w = i.len ∧ res0Field w = 0 ∧ res1Field w = 0 := by
  rw [encode_eq, commandWord_eq_iff]

/-! ### The rows of the opcode table (R76, R77) -/

/-- R76: a row's command has the row's opcode. -/
theorem op_of_opcodeRow {op : BitVec 4} {dir : Bool} {len : BitVec 11} {i : Instr}
    (h : opcodeRow op dir len = some i) : op = i.op := by
  apply BitVec.eq_of_toNat_eq
  unfold opcodeRow at h
  split at h <;> cases h <;> assumption

/-- R77: the opcodes without a row. -/
theorem opcodeRow_eq_none_iff (op : BitVec 4) (dir : Bool) (len : BitVec 11) :
    opcodeRow op dir len = none ↔ op.toNat = 0 ∨ 10 ≤ op.toNat := by
  unfold opcodeRow
  split <;> simp_all
  omega

/-- R76, R78: a command is what its row gives for its fields, and for no others: DIR and LEN are zero where the row has
none. -/
theorem opcodeRow_eq_some_iff (op : BitVec 4) (dir : Bool) (len : BitVec 11) (i : Instr) :
    (opcodeRow op dir len = some i ∧ (dir = true → op = 3) ∧ (len ≠ 0 → takesData op = true)) ↔
      op = i.op ∧ dir = i.dir ∧ len = i.len := by
  constructor
  · rintro ⟨hrow, hdir, hlen⟩
    obtain rfl := op_of_opcodeRow hrow
    cases i <;> simp_all [opcodeRow, Instr.op, Instr.dir, Instr.len, takesData]
  · rintro ⟨rfl, rfl, rfl⟩
    cases i <;> simp [opcodeRow, Instr.op, Instr.dir, Instr.len, takesData]

/-! ### Decoding (R78) -/

/-- R78: the checks that reject a word with BADCMD. -/
def BadCommand (w : Word) : Prop :=
  opcodeRow (opField w) (dirField w) (lenField w) = none ∨ res0Field w ≠ 0 ∨ res1Field w ≠ 0 ∨
    (dirField w = true ∧ opField w ≠ 0x3)

/-- R78: the checks that reject with BADLEN a word that passes the earlier ones. -/
def BadLength (w : Word) : Prop :=
  lenLegal (lenField w) = false ∨ (lenField w ≠ 0 ∧ takesData (opField w) = false)

/-- R78: the three verdicts. -/
theorem decode_cases (w : Word) :
    (decode w = .badcmd ∧ BadCommand w) ∨ (decode w = .badlen ∧ ¬ BadCommand w ∧ BadLength w) ∨
      ∃ i, decode w = .command i ∧ opcodeRow (opField w) (dirField w) (lenField w) = some i ∧
        ¬ BadCommand w ∧ ¬ BadLength w := by
  unfold decode BadCommand BadLength
  cases opcodeRow (opField w) (dirField w) (lenField w) with
  | none => simp
  | some i =>
    dsimp only
    split_ifs with hres hdir hlegal hlen
    · exact .inl ⟨rfl, by tauto⟩
    · exact .inl ⟨rfl, by tauto⟩
    · exact .inr (.inl ⟨rfl, by simp_all⟩)
    · exact .inr (.inr ⟨i, rfl, rfl, by simp_all, by simp_all⟩)
    · exact .inr (.inl ⟨rfl, by simp_all⟩)

theorem not_badCommand_iff (w : Word) :
    ¬ BadCommand w ↔ opcodeRow (opField w) (dirField w) (lenField w) ≠ none ∧ res0Field w = 0 ∧ res1Field w = 0 ∧
      (dirField w = true → opField w = 3) := by
  simp [BadCommand]

theorem not_badLength_iff (w : Word) :
    ¬ BadLength w ↔ lenLegal (lenField w) = true ∧ (lenField w ≠ 0 → takesData (opField w) = true) := by
  simp [BadLength]

theorem decode_eq_badcmd_iff (w : Word) : decode w = .badcmd ↔ BadCommand w := by
  rcases decode_cases w with ⟨h, hc⟩ | ⟨h, hc, -⟩ | ⟨i, h, -, hc, -⟩ <;> simp [h, hc]

theorem decode_eq_badlen_iff (w : Word) : decode w = .badlen ↔ ¬ BadCommand w ∧ BadLength w := by
  rcases decode_cases w with ⟨h, hc⟩ | ⟨h, hc, hl⟩ | ⟨i, h, -, hc, hl⟩ <;> simp [h, hc] <;> exact hl

theorem decode_eq_command_iff (w : Word) (i : Instr) :
    decode w = .command i ↔
      opcodeRow (opField w) (dirField w) (lenField w) = some i ∧ ¬ BadCommand w ∧ ¬ BadLength w := by
  rcases decode_cases w with ⟨h, hc⟩ | ⟨h, hc, hl⟩ | ⟨j, h, hrow, hc, hl⟩
  · simp [h, hc]
  · simp [h, hl]
  · simp [h, hrow, hc, hl]

/-- R76, R78: a word decodes to a command when its fields are the command's, the reserved ones zero and LEN legal. -/
theorem decode_eq_command_iff_fields (w : Word) (i : Instr) :
    decode w = .command i ↔ lenLegal (lenField w) = true ∧ opField w = i.op ∧ dirField w = i.dir ∧
      lenField w = i.len ∧ res0Field w = 0 ∧ res1Field w = 0 := by
  have hrow := opcodeRow_eq_some_iff (opField w) (dirField w) (lenField w) i
  rw [decode_eq_command_iff, not_badCommand_iff, not_badLength_iff]
  constructor
  · rintro ⟨h, ⟨-, hres0, hres1, hdir⟩, hlegal, hlen⟩
    obtain ⟨hop, hd, hn⟩ := hrow.1 ⟨h, hdir, hlen⟩
    exact ⟨hlegal, hop, hd, hn, hres0, hres1⟩
  · rintro ⟨hlegal, hop, hd, hn, hres0, hres1⟩
    obtain ⟨h, hdir, hlen⟩ := hrow.2 ⟨hop, hd, hn⟩
    exact ⟨h, ⟨by simp [h], hres0, hres1, hdir⟩, hlegal, hlen⟩

/-- Settles O1: both sides say that the word's fields are the command's, the reserved ones zero, and LEN legal. -/
theorem decodeExactlyInvertsEncode : Obligations.DecodeExactlyInvertsEncode := by
  unfold Obligations.DecodeExactlyInvertsEncode
  intro w i
  rw [decode_eq_command_iff_fields, encode_eq_iff, wf_eq, and_congr_left_iff]
  rintro ⟨-, -, hlen, -, -⟩
  rw [hlen]

/-! ### The verdict from the word's number (R78) -/

theorem takesData_iff (op : BitVec 4) : takesData op = true ↔ op.toNat = 2 ∨ op.toNat = 4 ∨ op.toNat = 7 := by
  simp [takesData, BitVec.toNat_eq, or_assoc]

theorem badCommand_iff (w : Word) :
    BadCommand w ↔ w.toNat % 16 = 0 ∨ 10 ≤ w.toNat % 16 ∨ w.toNat / 32 % 2048 ≠ 0 ∨ w.toNat / 134217728 ≠ 0 ∨
      (w.toNat / 16 % 2 = 1 ∧ w.toNat % 16 ≠ 3) := by
  simp [BadCommand, opcodeRow_eq_none_iff, dirField_eq, BitVec.toNat_eq, opField_toNat, res0Field_toNat,
    res1Field_toNat, or_assoc]

theorem badLength_iff (w : Word) :
    BadLength w ↔ 1024 < w.toNat / 65536 % 2048 ∨
      (w.toNat / 65536 % 2048 ≠ 0 ∧ w.toNat % 16 ≠ 2 ∧ w.toNat % 16 ≠ 4 ∧ w.toNat % 16 ≠ 7) := by
  simp [BadLength, lenLegal, ← Bool.not_eq_true, takesData_iff, BitVec.toNat_eq, opField_toNat, lenField_toNat]

/-- R76: the rows of the opcode map, by the opcode's number. -/
theorem opcodeRow_eq_some_ite {op : BitVec 4} (dir : Bool) (len : BitVec 11) (h0 : op.toNat ≠ 0)
    (h10 : op.toNat < 10) :
    opcodeRow op dir len = some
      (if op.toNat = 1 then .clear
       else if op.toNat = 2 then .kdf len
       else if op.toNat = 3 then .cipherInit dir
       else if op.toNat = 4 then .cipherUpdate len
       else if op.toNat = 5 then .cipherFinal
       else if op.toNat = 6 then .digestInit
       else if op.toNat = 7 then .digestUpdate len
       else if op.toNat = 8 then .digestFinal
       else .hex) := by
  unfold opcodeRow
  split <;> simp_all
  omega

/-- Settles O2: the checks of R78 on the fields, each field read off the word's number. -/
theorem decodeVerdictConditions : Obligations.DecodeVerdictConditions := by
  unfold Obligations.DecodeVerdictConditions
  intro w op dir res0 len res1 bad long
  have hbad : BadCommand w ↔ bad := badCommand_iff w
  have hlong : BadLength w ↔ long := badLength_iff w
  refine ⟨(decode_eq_badcmd_iff w).trans hbad, ?_, fun hnotBad hnotLong => ?_⟩
  · rw [decode_eq_badlen_iff, hbad, hlong]
  · have hop : (opField w).toNat = op := opField_toNat w
    have hlen : lenField w = BitVec.ofNat 11 len :=
      BitVec.eq_of_toNat_eq (by simp [lenField_toNat, len])
    have h0 : (opField w).toNat ≠ 0 := fun h => hnotBad (.inl (hop ▸ h))
    have h10 : (opField w).toNat < 10 := by
      by_contra h
      exact hnotBad (.inr (.inl (hop ▸ not_lt.1 h)))
    rw [decode_eq_command_iff, hbad, hlong, opcodeRow_eq_some_ite _ _ h0 h10, hop, hlen, dirField_eq]
    exact ⟨rfl, hnotBad, hnotLong⟩

/-! ### The selecting patterns (R79) -/

/-- R79: each field of a word that fits a row is, under the mask's, the row's. -/
theorem fields_of_fits {p : Pattern} {w : Word} (h : p.fits w = true) :
    opField w &&& opField p.mask = opField p.matchBits ∧
      (dirField w && dirField p.mask) = dirField p.matchBits ∧
      res0Field w &&& res0Field p.mask = res0Field p.matchBits ∧
      lenField w &&& lenField p.mask = lenField p.matchBits ∧
      res1Field w &&& res1Field p.mask = res1Field p.matchBits := by
  have hbits : p.matchBits = w &&& p.mask := (beq_iff_eq.1 h).symm
  simp [hbits, opField, dirField, res0Field, lenField, res1Field, BitVec.extractLsb'_and]

/-- R79: every row fixes the opcode and has zero in the reserved fields. -/
theorem patterns_fix_opcode :
    ∀ p ∈ patterns, opField p.mask = BitVec.allOnes 4 ∧ res0Field p.mask = BitVec.allOnes 11 ∧
      res1Field p.mask = BitVec.allOnes 5 ∧ res0Field p.matchBits = 0 ∧ res1Field p.matchBits = 0 := by
  decide

/-- R79: a row leaves DIR open for CIPHER_INIT only, and LEN for the commands with data only. -/
theorem patterns_fix_operands :
    ∀ p ∈ patterns, (opField p.matchBits = 3 ∨ (dirField p.mask = true ∧ dirField p.matchBits = false)) ∧
      (takesData (opField p.matchBits) = true ∨
        (lenField p.mask = BitVec.allOnes 11 ∧ lenField p.matchBits = 0)) := by
  decide

/-- R79: no two rows have one opcode. -/
theorem patterns_opcode_injective :
    ∀ p ∈ patterns, ∀ q ∈ patterns, opField p.matchBits = opField q.matchBits → p = q := by
  decide

/-- R76, R79: the row of a mnemonic has the opcode of its command. -/
theorem exists_opcodeRow_of_pattern (dir : Bool) (len : BitVec 11) :
    ∀ p ∈ patterns, ∃ i, opcodeRow (opField p.matchBits) dir len = some i ∧ mnemonic i = p.name := by
  simp only [patterns, List.forall_mem_cons, List.not_mem_nil, false_implies, implies_true, and_true]
  exact ⟨⟨_, rfl, rfl⟩, ⟨_, rfl, rfl⟩, ⟨_, rfl, rfl⟩, ⟨_, rfl, rfl⟩, ⟨_, rfl, rfl⟩, ⟨_, rfl, rfl⟩, ⟨_, rfl, rfl⟩,
    ⟨_, rfl, rfl⟩, ⟨_, rfl, rfl⟩⟩

theorem opField_of_fits {p : Pattern} {w : Word} (hp : p ∈ patterns) (h : p.fits w = true) :
    opField w = opField p.matchBits := by
  obtain ⟨hop, -⟩ := fields_of_fits h
  obtain ⟨hmask, -⟩ := patterns_fix_opcode p hp
  rwa [hmask, BitVec.and_allOnes] at hop

theorem not_badCommand_of_fits {p : Pattern} {w : Word} (hp : p ∈ patterns) (h : p.fits w = true) :
    ¬ BadCommand w := by
  obtain ⟨-, hdir, hres0, -, hres1⟩ := fields_of_fits h
  obtain ⟨-, hmask0, hmask1, hzero0, hzero1⟩ := patterns_fix_opcode p hp
  rw [hmask0, BitVec.and_allOnes, hzero0] at hres0
  rw [hmask1, BitVec.and_allOnes, hzero1] at hres1
  obtain ⟨i, hrow, -⟩ := exists_opcodeRow_of_pattern (dirField w) (lenField w) p hp
  rw [not_badCommand_iff, opField_of_fits hp h]
  refine ⟨by simp [hrow], hres0, hres1, fun hd => ?_⟩
  rcases (patterns_fix_operands p hp).1 with h3 | ⟨hmask, hzero⟩
  · exact h3
  · simp [hd, hmask, hzero] at hdir

theorem not_badLength_of_fits {p : Pattern} {w : Word} (hp : p ∈ patterns) (h : p.fits w = true)
    (hlegal : lenLegal (lenField w) = true) : ¬ BadLength w := by
  obtain ⟨-, -, -, hlen, -⟩ := fields_of_fits h
  rw [not_badLength_iff, opField_of_fits hp h]
  refine ⟨hlegal, fun hne => ?_⟩
  rcases (patterns_fix_operands p hp).2 with hdata | ⟨hmask, hzero⟩
  · exact hdata
  · rw [hmask, BitVec.and_allOnes, hzero] at hlen
    exact absurd hlen hne

/-- R79: a word that fits a row and has a legal LEN decodes to a command of the row's mnemonic. -/
theorem decode_of_fits {p : Pattern} {w : Word} (hp : p ∈ patterns) (h : p.fits w = true)
    (hlegal : lenLegal (lenField w) = true) : ∃ i, decode w = .command i ∧ mnemonic i = p.name := by
  obtain ⟨i, hrow, hname⟩ := exists_opcodeRow_of_pattern (dirField w) (lenField w) p hp
  rw [← opField_of_fits hp h] at hrow
  exact ⟨i, (decode_eq_command_iff w i).2 ⟨hrow, not_badCommand_of_fits hp h, not_badLength_of_fits hp h hlegal⟩,
    hname⟩

/-- R79: the word of every command fits the row of its mnemonic. -/
theorem encodeFits (i : Instr) : Laws.EncodeFits.Statement i := by
  cases i with
  | clear => exact Laws.EncodeFits.clear
  | kdf len => exact Laws.EncodeFits.kdf len
  | cipherInit dir => exact Laws.EncodeFits.cipherInit dir
  | cipherUpdate len => exact Laws.EncodeFits.cipherUpdate len
  | cipherFinal => exact Laws.EncodeFits.cipherFinal
  | digestInit => exact Laws.EncodeFits.digestInit
  | digestUpdate len => exact Laws.EncodeFits.digestUpdate len
  | digestFinal => exact Laws.EncodeFits.digestFinal
  | hex => exact Laws.EncodeFits.hex

/-- R79: a word that decodes to a command fits the row of the command's mnemonic. -/
theorem fits_of_decode {w : Word} {i : Instr} (h : decode w = .command i) :
    ∃ p ∈ patterns, p.name = mnemonic i ∧ p.fits w = true := by
  obtain ⟨-, rfl⟩ := (decodeExactlyInvertsEncode w i).1 h
  exact encodeFits i

/-- Settles O3: a word that fits a row has the row's opcode, and each opcode has one row; a decoded command's word is its
encoding, which fits its row. -/
theorem patternsSelectTheCommand : Obligations.PatternsSelectTheCommand := by
  unfold Obligations.PatternsSelectTheCommand
  refine ⟨fun w p q hp hq hpw hqw => ?_, fun w hnone => ?_, fun w i h => fits_of_decode h, fun w p hp h hlen => ?_⟩
  · exact patterns_opcode_injective p hp q hq ((opField_of_fits hp hpw).symm.trans (opField_of_fits hq hqw))
  · cases h : decode w with
    | badcmd => exact .inl rfl
    | badlen => exact .inr rfl
    | command i =>
      obtain ⟨p, hp, -, hfits⟩ := fits_of_decode h
      simp [hnone p hp] at hfits
  · exact decode_of_fits hp h (by simpa [lenLegal, lenField_toNat] using hlen)

/-! ### Examples (R80) -/

/-- Settles O4: each command's word is its encoding; the four words without a command are evaluated. -/
theorem exampleWordsDecode : Obligations.ExampleWordsDecode := by
  unfold Obligations.ExampleWordsDecode
  have hdecode {w : Word} {i : Instr} (hwf : i.wf = true) (hw : encode i = w) : decode w = .command i :=
    (decodeExactlyInvertsEncode w i).2 ⟨hwf, hw⟩
  exact ⟨hdecode rfl rfl, hdecode rfl rfl, hdecode rfl rfl, hdecode rfl rfl, hdecode rfl rfl, hdecode rfl rfl,
    hdecode rfl rfl, hdecode rfl rfl, hdecode rfl rfl, hdecode rfl rfl, by decide, by decide, by decide, by decide⟩

end Sys2Proof

namespace Sys2Proof.Machine

/-! ### An illegal word in flight (R78, R93, R95) -/

/-- R93, R95: the engine completes an illegal word with its code and changes nothing else. -/
theorem engineStep_illegal {s : State} {code : Word} (hb : s.busy = true)
    (h : (decode s.lcmd = .badcmd ∧ code = 0x102) ∨ (decode s.lcmd = .badlen ∧ code = 0x103)) :
    engineStep s = .next { s with errcode := code, outLen := 0, busy := false } := by
  rcases h with ⟨hd, rfl⟩ | ⟨hd, rfl⟩ <;> simp [engineStep, hb, hd, preconditionError, complete_nil]

/-- Settles O7: the machine's step is the engine's, on the engine's turn and with no turn left. -/
theorem illegalWordCompletesWithItsCode : Obligations.IllegalWordCompletesWithItsCode := by
  unfold Obligations.IllegalWordCompletesWithItsCode
  intro s code hb h
  refine ⟨engineStep_illegal hb h, fun ts hts => ?_, fun hts => ?_⟩
  · rw [step_of_cons hts]
    exact engineStep_illegal (s := { s with turns := ts }) hb h
  · rw [step_of_nil hts]
    exact engineStep_illegal hb h

end Sys2Proof.Machine
end

section
/-! PROOF. The command model: the engine's turn, acceptance, the checks and the state table, FAULT and CLEAR, and the
two cryptographic errors (spec 40_command_model.md, 42_cipher.md R126, R142). -/

namespace Sys2Proof.Machine

/-! ### The engine's turn (R92, R93, R100) -/

/-- Settles O5: the engine's turn, first in the list or with none left, runs the command in flight. -/
theorem stepRunsTheDecodedCommand : Obligations.StepRunsTheDecodedCommand := by
  unfold Obligations.StepRunsTheDecodedCommand
  intro s i hb hd
  refine ⟨fun ts hts => ?_, fun hts => ?_⟩
  · rw [step_of_cons hts]
    exact engineStep_command (s := { s with turns := ts }) hb hd
  · rw [step_of_nil hts]
    exact engineStep_command hb hd

/-! ### A CMD write: dropped or accepted (R90, R91) -/

/-- Settles O32: dropping the write is its one effect besides the response. -/
theorem commandWhileBusyIsDropped : Obligations.CommandWhileBusyIsDropped := by
  unfold Obligations.CommandWhileBusyIsDropped
  intro s v hr hb
  exact busAccess_dropped hr hb v

/-- R90: a CMD write while BUSY = 0, out of reset, is accepted. -/
theorem busAccess_accepted {s : State} (hr : s.inReset = false) (hb : s.busy = false) (v : Word) :
    busAccess (.write s.cfg.base 4 v) s = { accept v s with resp := some ⟨0, false⟩ } := by
  have haccept : writeWindow 0 4 v s = accept v s := by simp [writeWindow, regionOf, hb]
  rw [← haccept]
  exact busAccess_write_legal hr (off := 0) (by simp) rfl v

/-- R31: DATA_IN as a byte string. -/
theorem dataIn_toList (s : State) : s.dataIn.toList = (List.range 1024).map s.dataInByte :=
  fit_toList (by simp)

/-- R93, R95, R211: an illegal word in flight completes with an error of KIND 1. -/
theorem engineStep_illegal_errKind {s : State} (hb : s.busy = true) (h : ∀ i, decode s.lcmd ≠ .command i) :
    ∃ u, engineStep s = .next u ∧ u.errKind = 1 ∧ u.busy = false := by
  cases hd : decode s.lcmd with
  | badcmd => exact ⟨_, engineStep_illegal hb (.inl ⟨hd, rfl⟩), complete_errKind .badcmd [] s, rfl⟩
  | badlen => exact ⟨_, engineStep_illegal hb (.inr ⟨hd, rfl⟩), complete_errKind .badlen [] s, rfl⟩
  | command i => exact absurd hd (h i)

/-- Settles O31: the access is acceptance with its response, and LDATA is DATA_IN byte by byte. -/
theorem commandIsAccepted : Obligations.CommandIsAccepted := by
  unfold Obligations.CommandIsAccepted
  intro s v hr hb
  rw [busAccess_accepted hr hb]
  refine ⟨fun k hk => ?_, rfl, fun h => engineStep_illegal_errKind rfl h⟩
  simp [dataIn_toList, hk]

/-! ### The checks of every command (R93, R94, R95) -/

/-- R93, R94: every command checks its LEN, then its state by the table, and then has a rule of its own. -/
theorem exec_eq_checked (i : Instr) : ∃ rule, ∀ s, exec i s = checked i.wf (legalIn i s.fsm) s rule := by
  cases i with
  | clear => exact ⟨execClear, fun s => rfl⟩
  | kdf n => exact ⟨_, fun s => by rw [← (idle_eq_legalIn n true s.fsm).1]; rfl⟩
  | cipherInit dir => exact ⟨_, fun s => by rw [← (idle_eq_legalIn 0 dir s.fsm).2.1]; rfl⟩
  | cipherUpdate n => exact ⟨_, fun s => by rw [← (inCipher_eq_legalIn n s.fsm).1]; rfl⟩
  | cipherFinal => exact ⟨_, fun s => by rw [← (inCipher_eq_legalIn 0 s.fsm).2]; rfl⟩
  | digestInit => exact ⟨_, fun s => by rw [← (idle_eq_legalIn 0 true s.fsm).2.2]; rfl⟩
  | digestUpdate n => exact ⟨_, fun s => by rw [← (inDigest_eq_legalIn n s.fsm).1]; rfl⟩
  | digestFinal => exact ⟨_, fun s => by rw [← (inDigest_eq_legalIn 0 s.fsm).2]; rfl⟩
  | hex => exact ⟨_, fun s => by rw [← digestReady_eq_legalIn s.fsm]; rfl⟩

/-- Settles O8: the checks come before the command's own rule, LEN first. -/
theorem wrongStateCompletesWithSeq : Obligations.WrongStateCompletesWithSeq := by
  unfold Obligations.WrongStateCompletesWithSeq
  intro i s
  obtain ⟨rule, hexec⟩ := exec_eq_checked i
  refine ⟨fun hwf hlegal => ?_, fun hwf => ?_⟩
  · simp [hexec, checked, hwf, hlegal, preconditionError, complete_nil]
  · simp [hexec, checked, hwf, preconditionError, complete_nil]

/-! ### The state table (R94) -/

/-- R95 to R97: a completion with ERRCODE = 0 is that of a command's own changes. -/
theorem exec_success {i : Instr} {s t : State} (h : exec i s = .next t) (h0 : t.errcode = 0) :
    ∃ out r, Change s i out r ∧ t = complete .none out r := by
  have herr : ∀ c ∈ [ErrCode.seq, .badlen, .initFail, .finalLen, .finalPad], errWord c ≠ 0 := by decide
  rcases exec_cases h with ⟨c, hc, rfl⟩ | ⟨c, hc, rfl⟩ | hsuccess
  · exact absurd h0 (herr c (by simp at hc ⊢; tauto))
  · exact absurd h0 (herr c (by simp at hc ⊢; tauto))
  · exact hsuccess

/-- R94: a command changes the engine only in the table's states. -/
theorem Change.legalIn {s r : State} {i : Instr} {out : Bytes} (hc : Change s i out r) : legalIn i s.fsm = true := by
  cases hc with
  | clear => rfl
  | derive n hlen hidle => exact (idle_eq_legalIn n true s.fsm).1 ▸ hidle
  | bindCipher dir hidle hkeyv => exact (idle_eq_legalIn 0 dir s.fsm).2.1 ▸ hidle
  | emptyUpdate hin => exact (inCipher_eq_legalIn 0 s.fsm).1 ▸ hin
  | update n hlen hin hn => exact (inCipher_eq_legalIn n s.fsm).1 ▸ hin
  | encFinal hin hdir => exact (inCipher_eq_legalIn 0 s.fsm).2 ▸ hin
  | decFinal hin hdir hcbuf hheldv hpad => exact (inCipher_eq_legalIn 0 s.fsm).2 ▸ hin
  | bindDigest hidle => exact (idle_eq_legalIn 0 true s.fsm).2.2 ▸ hidle
  | absorb n hlen hin => exact (inDigest_eq_legalIn n s.fsm).1 ▸ hin
  | closeDigest hin => exact (inDigest_eq_legalIn 0 s.fsm).2 ▸ hin
  | hex hfsm => rw [hfsm]; rfl

/-- R94: a command's own changes leave the table's next state. -/
theorem Change.fsm {s r : State} {i : Instr} {out : Bytes} (hc : Change s i out r) : r.fsm = afterSuccess i s.fsm := by
  cases hc <;> rfl

/-- Settles O9: a success is a `Change`, whose constructors are the rows of the table. -/
theorem successFollowsTheStateTable : Obligations.SuccessFollowsTheStateTable := by
  unfold Obligations.SuccessFollowsTheStateTable
  intro i s t h h0
  obtain ⟨out, r, hc, rfl⟩ := exec_success h h0
  exact ⟨hc.legalIn, hc.fsm⟩

/-! ### Out of FAULT (R96, R99, R216) -/

/-- R94, R99: in FAULT only CLEAR is legal. -/
theorem legalIn_fault {i : Instr} (h : legalIn i .fault = true) : i = .clear := by
  cases i with
  | clear => rfl
  | _ => exact absurd h (by simp [legalIn])

/-- R96, R99: the engine's step leaves FAULT only by completing CLEAR. -/
theorem engineStep_fault {s t : State} (hf : s.fsm = .fault) (h : engineStep s = .next t) :
    t.fsm = .fault ∨ (t.fsm = .uninit ∧ s.busy = true ∧ s.lcmd = 0x00000001) := by
  rcases engineStep_cases h with ⟨-, rfl⟩ | ⟨-, rfl⟩ | ⟨-, rfl⟩ | ⟨i, hb, hd, hi⟩
  · exact .inl hf
  · exact .inl hf
  · exact .inl hf
  · rcases exec_cases hi with ⟨c, -, rfl⟩ | ⟨c, -, rfl⟩ | ⟨out, r, hc, rfl⟩
    · exact .inl hf
    · exact .inl rfl
    · obtain rfl : i = .clear := legalIn_fault (hf ▸ hc.legalIn)
      exact .inr ⟨hc.fsm, hb, decode_eq_clear hd⟩

/-- R27: no host access changes STATE. -/
theorem busAccess_fsm (a : Access) (s : State) : (busAccess a s).fsm = s.fsm := by
  obtain ⟨_, _, _, _, _, _, _, _, _, h⟩ := hostAccessKeepsTheEngine a s
  rw [h]

/-- Settles O11, turn by turn: only the engine's turn and the edges of reset change STATE. -/
theorem onlyClearOrResetLeavesFault : Obligations.OnlyClearOrResetLeavesFault := by
  unfold Obligations.OnlyClearOrResetLeavesFault
  intro s t hf h hleft
  rcases step_cases h with ⟨hts, he⟩ | ⟨ts, hts, he⟩ | ⟨a, ts, -, rfl⟩ | ⟨ts, hts, rfl⟩ | ⟨ts, hts, -, rfl⟩ |
    ⟨ts, -, -, rfl⟩
  · obtain ⟨hu, hb, hw⟩ := (engineStep_fault hf he).resolve_left hleft
    exact ⟨hu, .inl ⟨hb, hw, .inl hts⟩⟩
  · obtain ⟨hu, hb, hw⟩ := (engineStep_fault (s := { s with turns := ts }) hf he).resolve_left hleft
    exact ⟨hu, .inl ⟨hb, hw, .inr ⟨ts, hts⟩⟩⟩
  · exact absurd ((busAccess_fsm a { s with turns := ts }).trans hf) hleft
  · exact ⟨rfl, .inr (.inl ⟨ts, hts⟩)⟩
  · exact ⟨rfl, .inr (.inr ⟨ts, hts⟩)⟩
  · exact absurd hf hleft

/-- Settles O35: CLEAR has no check, and its completion writes no byte. -/
theorem clearGivesTheResetState : Obligations.ClearGivesTheResetState := by
  unfold Obligations.ClearGivesTheResetState
  intro s
  exact execClear_eq s

/-! ### The bounds of the outputs (R101) -/

/-- R101: the output of every command that succeeds is within the command's bound. -/
theorem Change.output_bound {s r : State} {i : Instr} {out : Bytes} (hc : Change s i out r) (h : EngineInv s) :
    out.length ≤ outputBound i := by
  cases hc with
  | update n hlen hin hn => exact update_length h.cipher (operand_length_le s n)
  | encFinal hin hdir => simp [Machine.encFinal, outputBound]
  | decFinal hin hdir hcbuf hheldv hpad => simp [padStrip, outputBound]
  | closeDigest hin => exact (finalDigest_length s).le
  | hex hfsm => simp [hexString_length, outputBound]
  | _ => exact Nat.zero_le _

/-- Settles O17: an error emits nothing, a success what its command's bound allows. -/
theorem outputsFitDataOut : Obligations.OutputsFitDataOut := by
  unfold Obligations.OutputsFitDataOut
  intro i s t hs h
  rcases exec_cases h with ⟨c, -, rfl⟩ | ⟨c, -, rfl⟩ | ⟨out, r, hc, rfl⟩
  · exact Nat.zero_le _
  · exact Nat.zero_le _
  · calc (complete .none out r).outLen.toNat
      _ ≤ out.length := by simp [Nat.mod_le]
      _ ≤ outputBound i := hc.output_bound ((inv_iff s).mp hs).1

/-! ### The cryptographic errors (R96, R126, R142) -/

/-- R96, R214: the state a cryptographic error leaves, field by field. -/
theorem cryptoError_eq (c : ErrCode) (s : State) :
    cryptoError c s = .next
      { s with
        ckey := zeros 32, cv := zeros 16, cbuf := [], held := zeros 16, heldv := false
        hs := .zero, hlen := 0, hbuf := [], key := zeros 32, iv := zeros 16, keyv := false
        digest := zeros 32, fsm := .fault, errcode := errWord c, outLen := 0, busy := false } := rfl

/-- R126: CIPHER_INIT in an idle state without key material. -/
theorem execCipherInit_initFail {s : State} (hidle : s.fsm.idle = true) (hkeyv : s.keyv = false) (dir : Bool) :
    execCipherInit dir s = cryptoError .initFail s := by
  simp [execCipherInit, checked, hidle, hkeyv]

/-- Settles O39: CIPHER_INIT then ends in the cryptographic error INIT_FAIL. -/
theorem cipherInitWithoutKeyFails : Obligations.CipherInitWithoutKeyFails := by
  unfold Obligations.CipherInitWithoutKeyFails
  intro s dir hlegal hkeyv
  obtain ⟨-, hidle, -⟩ := idle_eq_legalIn 0 dir s.fsm
  exact (execCipherInit_initFail (hidle.trans hlegal) hkeyv dir).trans (cryptoError_eq .initFail s)

/-- R140: a block is validly padded when it is some m followed by p bytes of value p, 1 <= p <= 16. -/
theorem padValid_iff {b : Bytes} (hb : b.length = 16) :
    padValid b = true ↔ ∃ (m : Bytes) (p : Nat), 1 ≤ p ∧ p ≤ 16 ∧ b = m ++ List.replicate p (BitVec.ofNat 8 p) := by
  simp only [padValid, Bool.and_eq_true, decide_eq_true_eq, List.all_eq_true, beq_iff_eq]
  constructor
  · rintro ⟨⟨h1, h16⟩, hall⟩
    refine ⟨b.take (16 - (b.getD 15 0).toNat), (b.getD 15 0).toNat, h1, h16, ?_⟩
    have htail : b.drop (16 - (b.getD 15 0).toNat) = List.replicate (b.getD 15 0).toNat (b.getD 15 0) :=
      List.eq_replicate_iff.mpr ⟨by rw [List.length_drop]; omega, hall⟩
    rw [BitVec.ofNat_toNat, BitVec.setWidth_eq, ← htail, List.take_append_drop]
  · rintro ⟨m, p, h1, h16, rfl⟩
    have hm : m.length = 16 - p := by simp at hb; omega
    have hlast : (m ++ List.replicate p (BitVec.ofNat 8 p)).getD 15 0 = BitVec.ofNat 8 p := by
      rw [List.getD_append_right _ _ _ _ (by omega), List.getD_replicate _ (by omega)]
    have hp : (BitVec.ofNat 8 p).toNat = p := by simp; omega
    rw [hlast, hp]
    refine ⟨⟨h1, h16⟩, fun x hx => ?_⟩
    rw [← hm, List.drop_left] at hx
    exact List.eq_of_mem_replicate hx

section
variable {s : State}

/-- R142: the ciphertext was empty or no multiple of 16 bytes. -/
theorem execCipherFinal_finalLen (hin : s.fsm.inCipher = true) (hdir : s.cdir = false)
    (h : s.cbuf ≠ [] ∨ s.heldv = false) : execCipherFinal s = cryptoError .finalLen s := by
  simp [execCipherFinal, checked, hin, hdir, h]

/-- R142: the held block is not validly padded. -/
theorem execCipherFinal_finalPad (hin : s.fsm.inCipher = true) (hdir : s.cdir = false) (hcbuf : s.cbuf = [])
    (hheldv : s.heldv = true) (hpad : padValid s.held.toList = false) :
    execCipherFinal s = cryptoError .finalPad s := by
  simp [execCipherFinal, checked, hin, hdir, hcbuf, hheldv, hpad]

end

/-- Settles O45: the checks of R142 in their order, the padding's read by `padValid_iff`. -/
theorem decryptFinalErrors : Obligations.DecryptFinalErrors := by
  unfold Obligations.DecryptFinalErrors
  intro s hlegal hdir failed
  obtain ⟨-, hlegalIn⟩ := inCipher_eq_legalIn 0 s.fsm
  have hin : s.fsm.inCipher = true := hlegalIn.trans hlegal
  refine ⟨fun h => ?_, fun hcbuf hheldv hno => ?_⟩
  · exact (execCipherFinal_finalLen hin hdir h).trans (cryptoError_eq .finalLen s)
  · have hpad : padValid s.held.toList = false := by
      rw [← Bool.not_eq_true, padValid_iff s.held.length_toList]
      exact hno
    exact (execCipherFinal_finalPad hin hdir hcbuf hheldv hpad).trans (cryptoError_eq .finalPad s)

end Sys2Proof.Machine
end

section
/-! PROOF. Key derivation: HMAC-SHA-256, the two constructions and their length, and the KDF command (spec
41_kdf.md R110 to R115, R119). -/

namespace Sys2Proof.Machine

/-! ### HMAC-SHA-256 (R114) -/

theorem hmacKey_length (k : Bytes) : (hmacKey k).length = 64 := by
  unfold hmacKey
  split_ifs with h
  · simp [sha256_length]
  · rw [List.length_append, List.length_replicate]
    omega

theorem hmacSha256_length (k m : Bytes) : (hmacSha256 k m).length = 32 := sha256_length _

/-- A string XORed with a constant byte, as R114 writes it: with as many copies of the byte as the string is long. -/
theorem xorBytes_replicate (a : Bytes) (b : Byte) :
    xorBytes a (List.replicate a.length b) = a.map (· ^^^ b) := by
  induction a with
  | nil => rfl
  | cons x xs ih => exact congrArg ((x ^^^ b) :: ·) ih

theorem hmacSha256_eq (k m : Bytes) :
    hmacSha256 k m =
      sha256 ((hmacKey k).map (· ^^^ 0x5c) ++ sha256 ((hmacKey k).map (· ^^^ 0x36) ++ m)) := by
  simp only [← xorBytes_replicate, hmacKey_length]
  rfl

/-! ### The derivation's output (R111 to R113) -/

theorem kdfOutput_bytesToKey {c : Config} (h : c.kdfVariant = .bytesToKeySha256) (p : Bytes) :
    kdfOutput c p = bytesToKey c.salt.toList p := by
  rw [kdfOutput, h]

theorem kdfOutput_pbkdf2 {c : Config} (h : c.kdfVariant = .pbkdf2HmacSha256) (p : Bytes) :
    kdfOutput c p = pbkdf2 c.salt.toList p := by
  rw [kdfOutput, h]

/-- Both constructions are a 32-byte string and the first 16 bytes of another. -/
theorem kdfOutput_length (c : Config) (p : Bytes) : (kdfOutput c p).length = 48 := by
  cases h : c.kdfVariant with
  | bytesToKeySha256 => simp [kdfOutput_bytesToKey h, bytesToKey, sha256_length]
  | pbkdf2HmacSha256 => simp [kdfOutput_pbkdf2 h, pbkdf2, hmacSha256_length]

/-- Settles O37: each construction by its variant, HMAC by its key block. -/
theorem kdfConstructions : Obligations.KdfConstructions := by
  unfold Obligations.KdfConstructions
  intro c p
  exact ⟨fun h => kdfOutput_bytesToKey h p, fun h => kdfOutput_pbkdf2 h p, kdfOutput_length c p,
    fun k m => ⟨hmacKey_length k, hmacSha256_eq k m⟩⟩

/-! ### The KDF command (R110, R115, R119) -/

theorem derivedKey_toList (c : Config) (p : Bytes) : (derivedKey c p).toList = (kdfOutput c p).take 32 :=
  fit_toList (by simp [kdfOutput_length])

theorem derivedIv_toList (c : Config) (p : Bytes) : (derivedIv c p).toList = (kdfOutput c p).drop 32 := by
  have hlen : ((kdfOutput c p).drop 32).length = 16 := by simp [kdfOutput_length]
  rw [derivedIv, List.take_of_length_le hlen.le]
  exact fit_toList hlen

/-- R115: KEY, then IV, are the derivation's output. -/
theorem derivedKey_append_derivedIv (c : Config) (p : Bytes) :
    (derivedKey c p).toList ++ (derivedIv c p).toList = kdfOutput c p := by
  rw [derivedKey_toList, derivedIv_toList, List.take_append_drop]

/-- R119: the passphrase's n bytes of LDATA are zero, the others kept. -/
theorem derive_ldata_toList {n : BitVec 11} (hn : n.toNat ≤ 1024) (s : State) :
    (derive n s).ldata.toList = List.replicate n.toNat 0 ++ s.ldata.toList.drop n.toNat := by
  rw [derive_ldata]
  exact fit_toList (by simp [hn])

/-- R110: KDF of a legal length in an idle state. -/
theorem execKdf_success {s : State} {n : BitVec 11} (hlen : lenLegal n = true) (hidle : s.fsm.idle = true) :
    execKdf n s = .next (complete .none [] (derive n s)) := by
  simp [execKdf, checked, hlen, hidle, succeed]

/-- Settles O36: the completed state is `derive`'s. -/
theorem kdfDerivesKeyAndIv : Obligations.KdfDerivesKeyAndIv := by
  unfold Obligations.KdfDerivesKeyAndIv
  intro s n hn hlegal
  obtain ⟨hidle, -⟩ := idle_eq_legalIn n true s.fsm
  have hexec : exec (.kdf n) s = .next (complete .none [] (derive n s)) :=
    execKdf_success (decide_eq_true hn) (hidle.trans hlegal)
  exact ⟨_, hexec, derivedKey_append_derivedIv s.cfg (s.operand n), derive_ldata_toList hn s, rfl⟩

end Sys2Proof.Machine
end

section
/-! PROOF. AES-256: the S-boxes, the column transformations and the rounds, each undone by its inverse (spec
42_cipher.md R146 to R156). -/

namespace Sys2Proof.Machine

/-! ### The S-boxes (R149, R150) -/

theorem invSbox_sbox : ∀ a : Byte, invSbox (sbox a) = a := by decide +kernel

theorem sbox_invSbox : ∀ a : Byte, sbox (invSbox a) = a := by decide +kernel

/-- The inverse of R149's affine map: bit i is y(i+2) ^ y(i+5) ^ y(i+7) ^ 0x05(i), the indices modulo 8. -/
def affineInverse (y : Byte) : Byte := y.rotateLeft 6 ^^^ y.rotateLeft 3 ^^^ y.rotateLeft 1 ^^^ 0x05

/-- R149: the affine map gives back what `affineInverse` is taken of. -/
theorem affine_affineInverse : ∀ y : Byte, ∀ i, i < 8 → y.getLsbD i =
    ((affineInverse y).getLsbD i ^^ (affineInverse y).getLsbD ((i + 4) % 8) ^^
      (affineInverse y).getLsbD ((i + 5) % 8) ^^ (affineInverse y).getLsbD ((i + 6) % 8) ^^
      (affineInverse y).getLsbD ((i + 7) % 8) ^^ (0x63#8).getLsbD i) := by decide +kernel

/-- R149: the table is the affine map of the inverse in the field, with 0 in the place of an inverse of 0. -/
theorem gfMul_affineInverse_sbox : ∀ a : Byte, a ≠ 0 → gfMul a (affineInverse (sbox a)) = 1 := by decide +kernel

theorem affineInverse_sbox_zero : affineInverse (sbox 0) = 0 := by decide

/-- Settles O47: the inverse of each byte is read off the table through the affine map's inverse. -/
theorem sboxIsTheAffineInverse : Obligations.SboxIsTheAffineInverse := by
  unfold Obligations.SboxIsTheAffineInverse
  refine ⟨fun a => ⟨invSbox_sbox a, sbox_invSbox a⟩, fun a => ⟨affineInverse (sbox a), ?_, ?_, ?_⟩⟩
  · rintro rfl
    exact affineInverse_sbox_zero
  · exact gfMul_affineInverse_sbox a
  · exact affine_affineInverse (sbox a)

/-! ### The state array (R147) -/

theorem cellsOf_length (f : Nat → Nat → Byte) : (cellsOf f).length = 16 := by simp [cellsOf]

theorem cellAt_cellsOf (f : Nat → Nat → Byte) {r c : Nat} (hr : r < 4) (hc : c < 4) :
    cellAt (cellsOf f) r c = f r c := by
  have hi : r + 4 * c < 16 := by omega
  have hcol : (r + 4 * c) / 4 = c := by omega
  simp [cellAt, cellsOf, hi, hcol, Nat.mod_eq_of_lt hr]

/-- A block is the array of its cells, however they are written. -/
theorem cellsOf_eq {f : Nat → Nat → Byte} {s : Bytes} (hs : s.length = 16)
    (h : ∀ r c, r < 4 → c < 4 → f r c = cellAt s r c) : cellsOf f = s := by
  apply List.ext_getElem
  · rw [cellsOf_length, hs]
  · intro i hi hi'
    have hidx : i % 4 + 4 * (i / 4) = i := Nat.mod_add_div i 4
    simp only [cellsOf, List.getElem_map, List.getElem_range]
    rw [h _ _ (by omega) (by omega), cellAt, hidx, List.getD_eq_getElem _ _ hi']

/-! ### The field (R148): a multiple is a sum of xtimes, and xtime is additive -/

theorem xor_left_comm (a b c : Byte) : a ^^^ (b ^^^ c) = b ^^^ (a ^^^ c) := by
  rw [← BitVec.xor_assoc, BitVec.xor_comm a b, BitVec.xor_assoc]

theorem xtime_zero : xtime 0#8 = 0#8 := rfl

theorem xtime_xor (a b : Byte) : xtime (a ^^^ b) = xtime a ^^^ xtime b := by
  have hshift : (a ^^^ b) <<< 1 = a <<< 1 ^^^ b <<< 1 := BitVec.shiftLeft_xor_distrib a b 1
  simp only [xtime, hshift, BitVec.getLsbD_xor]
  cases a.getLsbD 7 <;> cases b.getLsbD 7 <;> simp [BitVec.xor_assoc, xor_left_comm, BitVec.xor_comm]

section
variable (a : Byte)

theorem gfMul_02 : gfMul a 2#8 = xtime a := by simp [gfMul, List.range_succ, xtimes]
theorem gfMul_03 : gfMul a 3#8 = a ^^^ xtime a := by simp [gfMul, List.range_succ, xtimes]
theorem gfMul_09 : gfMul a 9#8 = a ^^^ xtime (xtime (xtime a)) := by simp [gfMul, List.range_succ, xtimes]
theorem gfMul_0b : gfMul a 11#8 = a ^^^ xtime a ^^^ xtime (xtime (xtime a)) := by
  simp [gfMul, List.range_succ, xtimes]
theorem gfMul_0d : gfMul a 13#8 = a ^^^ xtime (xtime a) ^^^ xtime (xtime (xtime a)) := by
  simp [gfMul, List.range_succ, xtimes]
theorem gfMul_0e : gfMul a 14#8 = xtime a ^^^ xtime (xtime a) ^^^ xtime (xtime (xtime a)) := by
  simp [gfMul, List.range_succ, xtimes]

end

/-! ### The round transformations undone (R153, R154) -/

/-- R153: a column's image is the sum of those of its four bytes. -/
theorem mixColumn_split (r : Nat) (a0 a1 a2 a3 : Byte) :
    mixColumn r a0 a1 a2 a3 =
      mixColumn r a0 0 0 0 ^^^ mixColumn r 0 a1 0 0 ^^^ mixColumn r 0 0 a2 0 ^^^ mixColumn r 0 0 0 a3 := by
  unfold mixColumn
  split <;> simp [gfMul_02, gfMul_03, xtime_zero]

theorem invMixColumn_xor (r : Nat) (a0 a1 a2 a3 b0 b1 b2 b3 : Byte) :
    invMixColumn r (a0 ^^^ b0) (a1 ^^^ b1) (a2 ^^^ b2) (a3 ^^^ b3) =
      invMixColumn r a0 a1 a2 a3 ^^^ invMixColumn r b0 b1 b2 b3 := by
  unfold invMixColumn
  split <;> simp [gfMul_09, gfMul_0b, gfMul_0d, gfMul_0e, xtime_xor] <;> ac_rfl

/-- R154: row r of InvMixColumns, on the column that MixColumns makes of (a0, a1, a2, a3). -/
def mixedBack (r : Nat) (a0 a1 a2 a3 : Byte) : Byte :=
  invMixColumn r (mixColumn 0 a0 a1 a2 a3) (mixColumn 1 a0 a1 a2 a3) (mixColumn 2 a0 a1 a2 a3) (mixColumn 3 a0 a1 a2 a3)

theorem mixedBack_split (r : Nat) (a0 a1 a2 a3 : Byte) :
    mixedBack r a0 a1 a2 a3 =
      mixedBack r a0 0 0 0 ^^^ mixedBack r 0 a1 0 0 ^^^ mixedBack r 0 0 a2 0 ^^^ mixedBack r 0 0 0 a3 := by
  simp only [mixedBack, ← invMixColumn_xor, ← mixColumn_split]

/-- The two matrices multiply to 1, entry by entry, already as polynomials in x. -/
theorem mixedBack_single {r : Nat} (hr : r < 4) (x : Byte) :
    mixedBack r x 0 0 0 = (if r = 0 then x else 0) ∧ mixedBack r 0 x 0 0 = (if r = 1 then x else 0) ∧
      mixedBack r 0 0 x 0 = (if r = 2 then x else 0) ∧ mixedBack r 0 0 0 x = (if r = 3 then x else 0) := by
  interval_cases r <;>
    simp [mixedBack, mixColumn, invMixColumn, gfMul_02, gfMul_03, gfMul_09, gfMul_0b, gfMul_0d, gfMul_0e, xtime_xor,
      xtime_zero, BitVec.xor_assoc, BitVec.xor_comm, xor_left_comm]

/-- R153, R154: InvMixColumns undoes MixColumns on a column. -/
theorem mixedBack_eq {r : Nat} (hr : r < 4) (a : Nat → Byte) : mixedBack r (a 0) (a 1) (a 2) (a 3) = a r := by
  obtain ⟨h0, -, -, -⟩ := mixedBack_single hr (a 0)
  obtain ⟨-, h1, -, -⟩ := mixedBack_single hr (a 1)
  obtain ⟨-, -, h2, -⟩ := mixedBack_single hr (a 2)
  obtain ⟨-, -, -, h3⟩ := mixedBack_single hr (a 3)
  rw [mixedBack_split, h0, h1, h2, h3]
  interval_cases r <;> simp

theorem subBytes_length (s : Bytes) : (subBytes s).length = 16 := cellsOf_length _
theorem shiftRows_length (s : Bytes) : (shiftRows s).length = 16 := cellsOf_length _
theorem mixColumns_length (s : Bytes) : (mixColumns s).length = 16 := cellsOf_length _
theorem addRoundKey_length (w : List Bytes) (rnd : Nat) (s : Bytes) : (addRoundKey w rnd s).length = 16 :=
  cellsOf_length _

theorem invSubBytes_subBytes {s : Bytes} (hs : s.length = 16) : invSubBytes (subBytes s) = s :=
  cellsOf_eq hs fun r c hr hc => by rw [subBytes, cellAt_cellsOf _ hr hc, invSbox_sbox]

theorem invShiftRows_shiftRows {s : Bytes} (hs : s.length = 16) : invShiftRows (shiftRows s) = s :=
  cellsOf_eq hs fun r c hr hc => by
    rw [shiftRows, cellAt_cellsOf _ hr (Nat.mod_lt _ (by decide)), show ((c + 4 - r) % 4 + r) % 4 = c by omega]

theorem invMixColumns_mixColumns {s : Bytes} (hs : s.length = 16) : invMixColumns (mixColumns s) = s :=
  cellsOf_eq hs fun r c hr hc => by
    simp only [mixColumns, cellAt_cellsOf _ (show 0 < 4 by decide) hc, cellAt_cellsOf _ (show 1 < 4 by decide) hc,
      cellAt_cellsOf _ (show 2 < 4 by decide) hc, cellAt_cellsOf _ (show 3 < 4 by decide) hc]
    exact mixedBack_eq hr (cellAt s · c)

theorem addRoundKey_addRoundKey (w : List Bytes) (rnd : Nat) {s : Bytes} (hs : s.length = 16) :
    addRoundKey w rnd (addRoundKey w rnd s) = s :=
  cellsOf_eq hs fun r c hr hc => by
    rw [addRoundKey, cellAt_cellsOf _ hr hc, BitVec.xor_assoc, BitVec.xor_self, BitVec.xor_zero]

/-! ### The cipher undone (R155, R156) -/

theorem aesRounds_length (w : List Bytes) (n : Nat) {s : Bytes} (hs : s.length = 16) :
    (aesRounds w n s).length = 16 := by
  cases n with
  | zero => exact hs
  | succ n => exact addRoundKey_length _ _ _

/-- R155, R156: rounds n down to 1 undo rounds 1 to n, up to the shift and the substitution that stand before each. -/
theorem aesInvRounds_aesRounds (w : List Bytes) (n : Nat) {s : Bytes} (hs : s.length = 16) :
    aesInvRounds w n (shiftRows (subBytes (aesRounds w n s))) = shiftRows (subBytes s) := by
  induction n with
  | zero => rfl
  | succ n ih =>
    rw [aesInvRounds, invShiftRows_shiftRows (subBytes_length _), invSubBytes_subBytes (aesRounds_length w _ hs),
      aesRounds, addRoundKey_addRoundKey w _ (mixColumns_length _), invMixColumns_mixColumns (shiftRows_length _), ih]

/-- Settles O46: the transformations of E undone one by one, from the last. -/
theorem aesDecryptionInvertsEncryption : Obligations.AesDecryptionInvertsEncryption := by
  unfold Obligations.AesDecryptionInvertsEncryption
  intro k x
  have hx : (addRoundKey (keyExpand k) 0 x.toList).length = 16 := addRoundKey_length _ _ _
  simp only [blockEncrypt, blockDecrypt, aesEncrypt, aesDecrypt]
  rw [fit_toList (addRoundKey_length _ _ _), addRoundKey_addRoundKey _ _ (shiftRows_length _),
    aesInvRounds_aesRounds _ _ hx, invShiftRows_shiftRows (subBytes_length _), invSubBytes_subBytes hx,
    addRoundKey_addRoundKey _ _ x.length_toList, toList_fit]

/-- R146: D inverts E for every cipher an implementation can select. -/
theorem cipherLawful_all (c : BlockCipher) : cipherLawful c := by
  cases c with
  | aes256 => exact aesDecryptionInvertsEncryption
  | custom swaps => exact cipherLawful_custom swaps

end Sys2Proof.Machine
end

section
/-! PROOF. The cipher commands one by one: CIPHER_INIT, CIPHER_UPDATE in both directions and CIPHER_FINAL with valid
padding (spec 42_cipher.md R126 to R133, R139 to R142). -/

namespace Sys2Proof.Machine

/-! ### What the commands do past their checks (R93, R94) -/

section
variable {s : State}

/-- R126: CIPHER_INIT in an idle state with key material. -/
theorem execCipherInit_success (hidle : s.fsm.idle = true) (hkeyv : s.keyv = true) (dir : Bool) :
    execCipherInit dir s = .next (complete .none [] (bindCipher dir s)) := by
  simp [execCipherInit, checked, hidle, hkeyv, succeed]

/-- R131: a zero-length update in a bound context. -/
theorem execCipherUpdate_zero (hin : s.fsm.inCipher = true) :
    execCipherUpdate 0 s = .next (complete .none [] { s with fsm := .cStream }) := by
  simp [execCipherUpdate, checked, lenLegal, hin, succeed]

/-- R131: an update of n >= 1 bytes in a bound context. -/
theorem execCipherUpdate_success (hin : s.fsm.inCipher = true) {n : BitVec 11} (h0 : 1 ≤ n.toNat)
    (hn : n.toNat ≤ 1024) :
    execCipherUpdate n s =
      .next (complete .none (s.update (s.operand n)).2 (advanceStream (s.update (s.operand n)).1 s)) := by
  have hne : n ≠ 0#11 := by rintro rfl; simp at h0
  simp [execCipherUpdate, checked, lenLegal, hn, hin, hne, succeed]

/-- R141: CIPHER_FINAL in an encrypt context. -/
theorem execCipherFinal_encrypt (hin : s.fsm.inCipher = true) (hdir : s.cdir = true) :
    execCipherFinal s = .next (complete .none (encFinal s.enc s.stream) (closeCipher s)) := by
  simp [execCipherFinal, checked, hin, hdir, succeed]

/-- R142: CIPHER_FINAL in a decrypt context that holds back a validly padded block. -/
theorem execCipherFinal_decrypt (hin : s.fsm.inCipher = true) (hdir : s.cdir = false) (hcbuf : s.cbuf = [])
    (hheldv : s.heldv = true) (hpad : padValid s.held.toList = true) :
    execCipherFinal s = .next (complete .none (padStrip s.held.toList) (closeCipher s)) := by
  simp [execCipherFinal, checked, hin, hdir, hcbuf, hheldv, hpad, succeed]

end

/-- Settles O38: the completed state is `bindCipher`'s. -/
theorem cipherInitBindsTheContext : Obligations.CipherInitBindsTheContext := by
  unfold Obligations.CipherInitBindsTheContext
  intro s dir hlegal hkeyv
  obtain ⟨-, hidle, -⟩ := idle_eq_legalIn 0 dir s.fsm
  exact execCipherInit_success (hidle.trans hlegal) hkeyv dir

/-- R94: the table's states of the cipher commands are those of a bound context. -/
theorem inCipher_of_legal_update {n : BitVec 11} {f : Fsm} (h : legalIn (.cipherUpdate n) f = true) :
    f.inCipher = true := by
  rw [(inCipher_eq_legalIn n f).1, h]

theorem inCipher_of_legal_final {f : Fsm} (h : legalIn .cipherFinal f = true) : f.inCipher = true := by
  rw [(inCipher_eq_legalIn 0 f).2, h]

/-- Settles O40: past the checks a zero-length update only moves STATE. -/
theorem zeroLengthCipherUpdate : Obligations.ZeroLengthCipherUpdate := by
  unfold Obligations.ZeroLengthCipherUpdate
  intro s hlegal
  exact execCipherUpdate_zero (inCipher_of_legal_update hlegal)

/-! ### Chaining, block by block (R127, R128) -/

/-- R127, R128: what block j of a chained string `c` is chained to: the block before it, or `cv` for the first. -/
def chainedTo (cv : Block) (c : Bytes) (j : Nat) : Block := if j = 0 then cv else fit 16 (c.drop (16 * (j - 1)))

/-- Past the first block the chain is that of the rest, chained to the first block. -/
theorem chainedTo_succ (cv : Block) (c : Bytes) (j : Nat) :
    chainedTo cv c (j + 1) = chainedTo (fit 16 c) (c.drop 16) j := by
  cases j with
  | zero => rfl
  | succ j => simp [chainedTo, List.drop_drop, Nat.mul_succ, Nat.add_comm]

theorem fit_block_append (b : Block) (l : Bytes) : fit 16 (b.toList ++ l) = b := by
  rw [← fit_take _ (by simp), List.take_left' b.length_toList, toList_fit]

theorem drop_block_append (b : Block) (l : Bytes) : (b.toList ++ l).drop 16 = l := List.drop_left' b.length_toList

/-- R127: the recurrence of CBC encryption, and the chaining value it leaves. -/
theorem cbcEncrypt_recurrence (e : Block → Block) (nb : Nat) (cv : Block) (t : Bytes) (ht : 16 * nb ≤ t.length) :
    (∀ j, j < nb → fit 16 ((cbcEncrypt e cv (splitBlocks 16 nb t)).2.drop (16 * j)) =
      e (xorBlock (fit 16 (t.drop (16 * j))) (chainedTo cv (cbcEncrypt e cv (splitBlocks 16 nb t)).2 j))) ∧
    (cbcEncrypt e cv (splitBlocks 16 nb t)).1 = chainedTo cv (cbcEncrypt e cv (splitBlocks 16 nb t)).2 nb := by
  induction nb generalizing cv t with
  | zero => exact ⟨by simp, rfl⟩
  | succ nb ih =>
    obtain ⟨hblocks, hcv⟩ := ih (e (xorBlock (fit 16 t) cv)) (t.drop 16) (by simp; omega)
    simp only [splitBlocks, cbcEncrypt, fit_take t (show 16 ≤ t.length by omega), chainedTo_succ, fit_block_append,
      drop_block_append]
    refine ⟨fun j hj => ?_, hcv⟩
    cases j with
    | zero => simp [fit_block_append, chainedTo]
    | succ j =>
      rw [chainedTo_succ, fit_block_append, drop_block_append, Nat.mul_succ, Nat.add_comm (16 * j), ← List.drop_drop,
        ← List.drop_drop, drop_block_append]
      exact hblocks j (by omega)

/-- R128: CBC decryption block by block, and the chaining value it leaves. -/
theorem cbcDecrypt_recurrence (d : Block → Block) (nb : Nat) (cv : Block) (t : Bytes) (ht : 16 * nb ≤ t.length) :
    (∀ j, j < nb → fit 16 ((cbcDecrypt d cv (splitBlocks 16 nb t)).2.drop (16 * j)) =
      xorBlock (d (fit 16 (t.drop (16 * j)))) (chainedTo cv t j)) ∧
    (cbcDecrypt d cv (splitBlocks 16 nb t)).1 = chainedTo cv t nb := by
  induction nb generalizing cv t with
  | zero => exact ⟨by simp, rfl⟩
  | succ nb ih =>
    obtain ⟨hblocks, hcv⟩ := ih (fit 16 t) (t.drop 16) (by simp; omega)
    simp only [splitBlocks, cbcDecrypt, fit_take t (show 16 ≤ t.length by omega), chainedTo_succ]
    refine ⟨fun j hj => ?_, hcv⟩
    cases j with
    | zero => simp [fit_block_append, chainedTo]
    | succ j =>
      rw [chainedTo_succ, Nat.mul_succ, Nat.add_comm (16 * j), ← List.drop_drop, ← List.drop_drop, drop_block_append]
      exact hblocks j (by omega)

/-! ### The updates (R131 to R133) -/

theorem update_of_encrypt {s : State} (h : s.cdir = true) (d : Bytes) : s.update d = encUpdate s.enc s.stream d := by
  simp [State.update, h]

theorem update_of_decrypt {s : State} (h : s.cdir = false) (d : Bytes) : s.update d = decUpdate s.dec s.stream d := by
  simp [State.update, h]

/-- Settles O41: the update's output is `cbcEncrypt`'s, whose recurrence is R127's. -/
theorem encryptUpdateIsCbc : Obligations.EncryptUpdateIsCbc := by
  unfold Obligations.EncryptUpdateIsCbc
  intro s n h0 hn hlegal hdir t nb
  have hexec : exec (.cipherUpdate n) s = _ := execCipherUpdate_success (inCipher_of_legal_update hlegal) h0 hn
  rw [update_of_encrypt hdir] at hexec
  obtain ⟨hblocks, hcv⟩ := cbcEncrypt_recurrence s.enc nb s.cv t (by omega)
  refine ⟨_, (encUpdate s.enc s.stream (s.operand n)).2, hexec, complete_emitted _ _ _ rfl, ?_, hblocks, hcv, rfl, rfl⟩
  rw [encUpdate_length, ← List.length_append]
  rfl

/-- R133: a string cut before its last block. -/
theorem take_append_lastBlock {l : Bytes} (hl : 16 ≤ l.length) :
    l.take (l.length - 16) ++ (fit 16 (l.drop (l.length - 16))).toList = l := by
  rw [fit_toList (by rw [List.length_drop]; omega), List.take_append_drop]

/-- R133: what the release of the block held back gives and leaves. -/
theorem releaseHeld_eq (x : CipherStream) :
    (releaseHeld x).2 = (if x.heldv = true then x.held.toList else []) ∧ (releaseHeld x).1.heldv = false ∧
      (releaseHeld x).1.held = (if x.heldv = true then zeros 16 else x.held) := by
  cases h : x.heldv <;> simp [releaseHeld, h]

/-- R133: an update in decryption, with `plain` the plaintext of the complete blocks: what it holds back and emits, and
what it leaves in HELD and HELD_V. -/
theorem decUpdate_held (dec : Block → Block) (x : CipherStream) (d : Bytes) :
    let t := x.cbuf ++ d
    let plain := (cbcDecrypt dec x.cv (splitBlocks 16 (t.length / 16) t)).2
    let r := decUpdate dec x d
    if 0 < t.length / 16 ∧ t.length % 16 = 0 then
      r.2 ++ r.1.held.toList = (releaseHeld x).2 ++ plain ∧ r.1.heldv = true
    else
      r.2 = (releaseHeld x).2 ++ plain ∧ r.1.heldv = (releaseHeld x).1.heldv ∧ r.1.held = (releaseHeld x).1.held := by
  intro t plain r
  have hplain : plain.length = 16 * (t.length / 16) := by
    rw [cbcDecrypt_length, splitBlocks_length]
  have hrest : (t.drop (16 * (t.length / 16))).length = t.length % 16 := by rw [List.length_drop]; omega
  simp only [r, decUpdate]
  rw [hrest]
  split
  · exact ⟨take_append_lastBlock (by rw [List.length_append, hplain]; omega), rfl⟩
  · exact ⟨rfl, rfl, rfl⟩

/-- R133: an update in decryption leaves the last ciphertext block in CV and the bytes left in CBUF. -/
theorem decUpdate_cv_cbuf (dec : Block → Block) (x : CipherStream) (d : Bytes) :
    let t := x.cbuf ++ d
    (decUpdate dec x d).1.cv = (cbcDecrypt dec x.cv (splitBlocks 16 (t.length / 16) t)).1 ∧
      (decUpdate dec x d).1.cbuf = t.drop (16 * (t.length / 16)) := by
  simp only [decUpdate]
  split <;> exact ⟨rfl, rfl⟩

/-- Settles O42: `cbcDecrypt`'s recurrence is R128's, and `decUpdate_held` says where its last block goes. -/
theorem decryptUpdateHoldsTheLastBlock : Obligations.DecryptUpdateHoldsTheLastBlock := by
  unfold Obligations.DecryptUpdateHoldsTheLastBlock
  intro s n h0 hn hlegal hdir t nb rel
  have hexec : exec (.cipherUpdate n) s = _ := execCipherUpdate_success (inCipher_of_legal_update hlegal) h0 hn
  rw [update_of_decrypt hdir] at hexec
  obtain ⟨hblocks, hlast⟩ := cbcDecrypt_recurrence s.dec nb s.cv t (by omega)
  obtain ⟨hcv, hcbuf⟩ := decUpdate_cv_cbuf s.dec s.stream (s.operand n)
  obtain ⟨hrel, hheldv, hheld⟩ := releaseHeld_eq s.stream
  refine ⟨_, (cbcDecrypt s.dec s.cv (splitBlocks 16 nb t)).2, (decUpdate s.dec s.stream (s.operand n)).2, hexec,
    complete_emitted _ _ _ rfl, ?_, hblocks, hcv.trans hlast, hcbuf, ?_, rfl⟩
  · rw [cbcDecrypt_length, splitBlocks_length]
  · have hheldback := decUpdate_held s.dec s.stream (s.operand n)
    simp only [hrel, hheldv, hheld] at hheldback
    exact hheldback

/-! ### The final command (R139 to R142) -/

/-- Settles O43: the one block is `encFinal`'s, of the padded rest. -/
theorem encryptFinalPads : Obligations.EncryptFinalPads := by
  unfold Obligations.EncryptFinalPads
  intro s hlegal hdir hshort p
  exact ⟨_, _, execCipherFinal_encrypt (inCipher_of_legal_final hlegal) hdir, complete_emitted _ _ _ rfl, rfl, by
    simp [complete, encFinal, closeCipher, zeroizeCipher]⟩

/-- R140: the padding of a validly padded block, taken off again. -/
theorem padStrip_eq {m : Bytes} {p : Nat} (h1 : 1 ≤ p) (hp : m.length + p = 16) :
    padStrip (m ++ List.replicate p (BitVec.ofNat 8 p)) = m := by
  have hlast : (m ++ List.replicate p (BitVec.ofNat 8 p)).getD 15 0 = BitVec.ofNat 8 p := by
    rw [List.getD_append_right _ _ _ _ (by omega), List.getD_replicate _ (by omega)]
  have hvalue : (BitVec.ofNat 8 p).toNat = p := by simp; omega
  rw [padStrip, hlast, hvalue, List.take_left' (by omega)]

/-- R142: CIPHER_FINAL in a decrypt context whose held block is m with its padding. -/
theorem execCipherFinal_padded {s : State} (hin : s.fsm.inCipher = true) (hdir : s.cdir = false) (hcbuf : s.cbuf = [])
    (hheldv : s.heldv = true) {m : Bytes} {p : Nat} (h1 : 1 ≤ p) (h16 : p ≤ 16)
    (hheld : s.held.toList = m ++ List.replicate p (BitVec.ofNat 8 p)) :
    execCipherFinal s = .next (complete .none m (closeCipher s)) := by
  have hlen : m.length + p = 16 := by simpa [hheld] using s.held.length_toList
  rw [execCipherFinal_decrypt hin hdir hcbuf hheldv ((padValid_iff s.held.length_toList).mpr ⟨m, p, h1, h16, hheld⟩),
    hheld, padStrip_eq h1 hlen]

/-- Settles O44: HELD is m with its padding, and 16 - p is the length of m. -/
theorem decryptFinalStripsThePadding : Obligations.DecryptFinalStripsThePadding := by
  unfold Obligations.DecryptFinalStripsThePadding
  intro s m p hlegal hdir hcbuf hheldv h1 h16 hheld
  have hlen : m.length = 16 - p := by
    have : m.length + p = 16 := by simpa [hheld] using s.held.length_toList
    omega
  refine ⟨_, execCipherFinal_padded (inCipher_of_legal_final hlegal) hdir hcbuf hheldv h1 h16 hheld,
    complete_emitted _ _ _ rfl, ?_⟩
  rw [← hlen]
  rfl

end Sys2Proof.Machine
end

section
/-! PROOF. A cipher context from CIPHER_INIT to CIPHER_FINAL: what the updates have done depends on the concatenated
input only, and decryption gives back what was encrypted (spec 42_cipher.md R129, R134, R135, R144, R145, R158). -/

namespace Sys2Proof.Machine

/-! ### A byte string as its complete blocks and the rest (R132, R133) -/

/-- The complete 16-byte blocks of a string. -/
def blocksOf (t : Bytes) : List Bytes := splitBlocks 16 (t.length / 16) t

/-- The bytes after the complete blocks. -/
def restOf (t : Bytes) : Bytes := t.drop (16 * (t.length / 16))

theorem restOf_length (t : Bytes) : (restOf t).length = t.length % 16 := by
  rw [restOf, List.length_drop]; omega

theorem blocksOf_length (t : Bytes) : (blocksOf t).length = t.length / 16 := splitBlocks_length _ _ _

/-- What follows only meets the rest: the blocks before it are cut already. -/
theorem blocks_rest_append (m d : Bytes) :
    blocksOf (m ++ d) = blocksOf m ++ blocksOf (restOf m ++ d) ∧ restOf (m ++ d) = restOf (restOf m ++ d) := by
  have hcut : 16 * (m.length / 16) ≤ m.length := by omega
  have hrest : (m ++ d).drop (16 * (m.length / 16)) = restOf m ++ d := List.drop_append_of_le_length hcut
  have hcount : (m ++ d).length / 16 = m.length / 16 + (restOf m ++ d).length / 16 := by
    simp only [List.length_append, restOf_length]; omega
  constructor
  · rw [blocksOf, hcount, splitBlocks_append, splitBlocks_take 16 _ m d hcut, hrest]
    rfl
  · rw [restOf, hcount, Nat.mul_add, ← List.drop_drop, hrest]
    rfl

theorem blocksOf_block_append {b : Bytes} (hb : b.length = 16) (l : Bytes) :
    blocksOf (b ++ l) = b :: blocksOf l := by
  have hcount : (b ++ l).length / 16 = l.length / 16 + 1 := by rw [List.length_append]; omega
  rw [blocksOf, hcount, splitBlocks, List.take_left' hb, List.drop_left' hb]
  rfl

theorem blocksOf_flatten {t : Bytes} (h : t.length % 16 = 0) : (blocksOf t).flatten = t := by
  rw [blocksOf, splitBlocks_flatten, List.take_of_length_le (by omega)]

theorem length_of_mem_splitBlocks {k : Nat} {t b : Bytes} (ht : 16 * k ≤ t.length) (hb : b ∈ splitBlocks 16 k t) :
    b.length = 16 := by
  induction k generalizing t with
  | zero => simp [splitBlocks] at hb
  | succ k ih =>
    rcases List.mem_cons.mp hb with rfl | hb
    · rw [List.length_take]; omega
    · exact ih (by rw [List.length_drop]; omega) hb

theorem length_of_mem_blocksOf {t b : Bytes} (hb : b ∈ blocksOf t) : b.length = 16 :=
  length_of_mem_splitBlocks (by omega) hb

/-! ### Chaining over more blocks (R127, R128) -/

theorem cbcEncrypt_append (e : Block → Block) (cv : Block) (a b : List Bytes) :
    cbcEncrypt e cv (a ++ b) =
      ((cbcEncrypt e (cbcEncrypt e cv a).1 b).1,
        (cbcEncrypt e cv a).2 ++ (cbcEncrypt e (cbcEncrypt e cv a).1 b).2) := by
  induction a generalizing cv with
  | nil => rfl
  | cons x a ih => simp [cbcEncrypt, ih]

theorem cbcDecrypt_append (d : Block → Block) (cv : Block) (a b : List Bytes) :
    cbcDecrypt d cv (a ++ b) =
      ((cbcDecrypt d (cbcDecrypt d cv a).1 b).1,
        (cbcDecrypt d cv a).2 ++ (cbcDecrypt d (cbcDecrypt d cv a).1 b).2) := by
  induction a generalizing cv with
  | nil => rfl
  | cons x a ih => simp [cbcDecrypt, ih]

/-- R146, R158: under D that inverts E, CBC decryption gives back the encrypted blocks. -/
theorem cbcDecrypt_cbcEncrypt {e d : Block → Block} (hed : ∀ x, d (e x) = x) (cv : Block) {bs : List Bytes}
    (hbs : ∀ b ∈ bs, b.length = 16) : (cbcDecrypt d cv (blocksOf (cbcEncrypt e cv bs).2)).2 = bs.flatten := by
  induction bs generalizing cv with
  | nil => simp [cbcEncrypt, blocksOf, splitBlocks, cbcDecrypt]
  | cons b bs ih =>
    obtain ⟨hb, hbs⟩ := List.forall_mem_cons.mp hbs
    rw [cbcEncrypt, blocksOf_block_append Vector.length_toList, cbcDecrypt]
    simp only [toList_fit, hed, xorBlock_xorBlock, fit_toList hb, ih _ hbs, List.flatten_cons]

/-! ### What the updates of a context have done (R134, R135) -/

/-- R134: an encrypt context that has been fed m since `iv`, with `out` emitted: all is encrypted but the rest. -/
structure EncRun (e : Block → Block) (iv : Block) (m : Bytes) (x : CipherStream) (out : Bytes) : Prop where
  chain : (x.cv, out) = cbcEncrypt e iv (blocksOf m)
  rest : x.cbuf = restOf m

/-- R135: a decrypt context that has been fed c since `iv`, with `out` emitted: everything is decrypted but the rest,
and the last block is held back where the input ends with it. -/
structure DecRun (d : Block → Block) (iv : Block) (c : Bytes) (x : CipherStream) (out : Bytes) : Prop where
  chain : (x.cv, out ++ if x.heldv = true then x.held.toList else []) = cbcDecrypt d iv (blocksOf c)
  rest : x.cbuf = restOf c
  held : x.heldv = true ↔ 0 < c.length ∧ c.length % 16 = 0

theorem EncRun.output_length {e : Block → Block} {iv : Block} {m : Bytes} {x : CipherStream} {out : Bytes}
    (h : EncRun e iv m x out) : out.length = 16 * (m.length / 16) := by
  have hout : out = (cbcEncrypt e iv (blocksOf m)).2 := congrArg Prod.snd h.chain
  rw [hout, cbcEncrypt_length, blocksOf_length]

theorem DecRun.output_length {d : Block → Block} {iv : Block} {c : Bytes} {x : CipherStream} {out : Bytes}
    (h : DecRun d iv c x out) : out.length + (if x.heldv = true then 16 else 0) = 16 * (c.length / 16) := by
  have hlen := congrArg List.length (congrArg Prod.snd h.chain)
  rw [cbcDecrypt_length, blocksOf_length, List.length_append] at hlen
  rw [← hlen]
  split <;> simp

/-- R132: an update appends its chunk to what was fed. -/
theorem EncRun.update {e : Block → Block} {iv : Block} {m : Bytes} {x : CipherStream} {out : Bytes}
    (h : EncRun e iv m x out) (d : Bytes) :
    EncRun e iv (m ++ d) (encUpdate e x d).1 (out ++ (encUpdate e x d).2) := by
  obtain ⟨hblocks, hrest⟩ := blocks_rest_append m d
  constructor
  · rw [hblocks, cbcEncrypt_append, ← h.chain, ← h.rest]
    rfl
  · rw [hrest, ← h.rest]
    rfl

/-- R133: so does an update in decryption, when its chunk is not empty. -/
theorem DecRun.update {dec : Block → Block} {iv : Block} {c : Bytes} {x : CipherStream} {out : Bytes}
    (h : DecRun dec iv c x out) {d : Bytes} (hd : 0 < d.length) :
    DecRun dec iv (c ++ d) (decUpdate dec x d).1 (out ++ (decUpdate dec x d).2) := by
  obtain ⟨hblocks, hrest⟩ := blocks_rest_append c d
  obtain ⟨hcv, hcbuf⟩ := decUpdate_cv_cbuf dec x d
  obtain ⟨hrel, hheldv, -⟩ := releaseHeld_eq x
  have hlen : (x.cbuf ++ d).length = c.length % 16 + d.length := by rw [List.length_append, h.rest, restOf_length]
  have hends : 0 < (x.cbuf ++ d).length / 16 ∧ (x.cbuf ++ d).length % 16 = 0 ↔
      0 < (c ++ d).length ∧ (c ++ d).length % 16 = 0 := by
    rw [hlen, List.length_append]; omega
  have htotal : cbcDecrypt dec iv (blocksOf (c ++ d)) = ((decUpdate dec x d).1.cv,
      out ++ ((releaseHeld x).2 ++ (cbcDecrypt dec x.cv (blocksOf (x.cbuf ++ d))).2)) := by
    rw [hblocks, cbcDecrypt_append, ← h.chain, ← h.rest, hcv, hrel, List.append_assoc]
    rfl
  have hleft : (decUpdate dec x d).1.cbuf = restOf (c ++ d) := by rw [hrest, hcbuf, h.rest]; rfl
  have hheldback := decUpdate_held dec x d
  dsimp only at hheldback
  split at hheldback <;> rename_i hend
  · obtain ⟨hout, hv⟩ := hheldback
    refine ⟨?_, hleft, iff_of_true hv (hends.mp hend)⟩
    rw [htotal, List.append_assoc, if_pos hv, hout]
    rfl
  · obtain ⟨hout, hv, -⟩ := hheldback
    have hv : ¬ (decUpdate dec x d).1.heldv = true := by rw [hv, hheldv]; decide
    refine ⟨?_, hleft, iff_of_false hv (mt hends.mpr hend)⟩
    rw [htotal, if_neg hv, List.append_nil, hout]
    rfl

/-- R134, R135: the updates of a context in the direction `dir` have been fed `input` since `iv` and emitted `out`. -/
def StreamRun (b : BlockCipher) (k : Key) (iv : Block) (input : Bytes) (x : CipherStream) (out : Bytes) : Bool → Prop
  | true => EncRun (blockEncrypt b k) iv input x out
  | false => DecRun (blockDecrypt b k) iv input x out

/-- R101: between two points of a run at most 1024 bytes apart at most 1024 bytes are emitted. -/
theorem StreamRun.output_le {b : BlockCipher} {k : Key} {iv : Block} {input d : Bytes} {x y : CipherStream}
    {out o : Bytes} {dir : Bool} (h : StreamRun b k iv input x out dir)
    (h' : StreamRun b k iv (input ++ d) y (out ++ o) dir) (hd : d.length ≤ 1024) : o.length ≤ 1024 := by
  cases dir with
  | true =>
    have hx := EncRun.output_length h
    have hy := EncRun.output_length h'
    rw [List.length_append, List.length_append] at hy
    omega
  | false =>
    have hx := DecRun.output_length h
    have hy := DecRun.output_length h'
    have hheld : x.heldv = true → _ := (DecRun.held h).mp
    have hheld' : 0 < _ ∧ _ → y.heldv = true := (DecRun.held h').mpr
    rw [List.length_append, List.length_append] at hy
    rw [List.length_append] at hheld'
    split_ifs at hx hy <;> simp_all <;> omega

/-! ### The state of a bound context (R35, R129) -/

/-- R129: s holds a cipher context in the direction `dir` of the implementation c, under the key k, that has been fed
`input` since `iv` and has emitted `out`. -/
structure Streaming (dir : Bool) (c : Config) (k : Key) (iv : Block) (input : Bytes) (s : State) (out : Bytes) :
    Prop where
  cfg : s.cfg = c
  bound : s.fsm.inCipher = true
  cdir : s.cdir = dir
  ckey : s.ckey = k
  run : StreamRun c.blockCipher k iv input s.stream out dir

/-- R134: an encrypt context before its first update. -/
theorem Streaming.encrypt_fresh {s : State} (hin : s.fsm.inCipher = true) (hdir : s.cdir = true) (hcbuf : s.cbuf = []) :
    Streaming true s.cfg s.ckey s.cv [] s [] :=
  ⟨rfl, hin, hdir, rfl, ⟨rfl, hcbuf⟩⟩

/-- R135: a decrypt context before its first update. -/
theorem Streaming.decrypt_fresh {s : State} (hin : s.fsm.inCipher = true) (hdir : s.cdir = false) (hcbuf : s.cbuf = [])
    (hheldv : s.heldv = false) : Streaming false s.cfg s.ckey s.cv [] s [] :=
  ⟨rfl, hin, hdir, rfl, ⟨by simp [State.stream, hheldv, blocksOf, splitBlocks, cbcDecrypt], hcbuf, by
    simp [State.stream, hheldv]⟩⟩

/-- R126: CIPHER_INIT binds a fresh context to the key material. -/
theorem Streaming.bindCipher (dir : Bool) (s : State) :
    Streaming dir s.cfg s.key s.iv [] (bindCipher dir s) [] := by
  cases dir with
  | true => exact .encrypt_fresh (s := Machine.bindCipher true s) rfl rfl rfl
  | false => exact .decrypt_fresh (s := Machine.bindCipher false s) rfl rfl rfl rfl

/-- R92: a completion leaves the context alone. -/
theorem Streaming.complete {dir : Bool} {c : Config} {k : Key} {iv : Block} {input : Bytes} {s : State} {out : Bytes}
    (h : Streaming dir c k iv input s out) (code : ErrCode) (o : Bytes) :
    Streaming dir c k iv input (complete code o s) out :=
  ⟨h.cfg, h.bound, h.cdir, h.ckey, h.run⟩

/-- R95 to R97: a command whose own changes are `Change`'s completes without error. -/
theorem Change.exec {s r : State} {i : Instr} {out : Bytes} (hc : Change s i out r) :
    exec i s = .next (complete .none out r) := by
  cases hc with
  | clear => exact execClear_eq s
  | derive n hlen hidle => exact execKdf_success hlen hidle
  | bindCipher dir hidle hkeyv => exact execCipherInit_success hidle hkeyv dir
  | emptyUpdate hin => exact execCipherUpdate_zero hin
  | update n hlen hin hn =>
    have hpos : n.toNat ≠ 0 := fun h0 => hn (BitVec.eq_of_toNat_eq h0)
    exact execCipherUpdate_success hin (Nat.one_le_iff_ne_zero.mpr hpos) (of_decide_eq_true hlen)
  | encFinal hin hdir => exact execCipherFinal_encrypt hin hdir
  | decFinal hin hdir hcbuf hheldv hpad => exact execCipherFinal_decrypt hin hdir hcbuf hheldv hpad
  | bindDigest hidle => simp [Machine.exec, execDigestInit, checked, hidle, succeed]
  | absorb n hlen hin => simp [Machine.exec, execDigestUpdate, checked, hlen, hin, succeed]
  | closeDigest hin => simp [Machine.exec, execDigestFinal, checked, hin, succeed]
  | hex hfsm => simp [Machine.exec, execHex, checked, Fsm.digestReady, hfsm, succeed]

/-- R131: CIPHER_UPDATE, empty or not, appends its operand to what the context was fed. -/
theorem Streaming.update {dir : Bool} {c : Config} {k : Key} {iv : Block} {input : Bytes} {s : State} {out : Bytes}
    (h : Streaming dir c k iv input s out) {n : BitVec 11} (hn : n.toNat ≤ 1024) :
    ∃ o r, Change s (.cipherUpdate n) o r ∧ o.length ≤ 1024 ∧
      Streaming dir c k iv (input ++ s.operand n) r (out ++ o) := by
  obtain ⟨hcfg, hin, hdir, hckey, hrun⟩ := h
  by_cases h0 : n = 0
  · subst h0
    have hnone : s.operand 0 = [] := rfl
    rw [hnone]
    exact ⟨[], _, .emptyUpdate hin, by simp, hcfg, rfl, hdir, hckey, by
      rw [List.append_nil, List.append_nil]; exact hrun⟩
  · have hlen : (s.operand n).length = n.toNat := by simp [State.operand, hn]
    have hpos : 0 < (s.operand n).length :=
      hlen ▸ Nat.pos_of_ne_zero fun hz => h0 (BitVec.eq_of_toNat_eq hz)
    have hstep : StreamRun c.blockCipher k iv (input ++ s.operand n) (s.update (s.operand n)).1
        (out ++ (s.update (s.operand n)).2) dir := by
      subst hcfg hckey
      cases hd : s.cdir with
      | true =>
        obtain rfl : true = dir := hd.symm.trans hdir
        rw [update_of_encrypt hd]
        exact EncRun.update hrun _
      | false =>
        obtain rfl : false = dir := hd.symm.trans hdir
        rw [update_of_decrypt hd]
        exact DecRun.update hrun hpos
    exact ⟨_, _, .update n (decide_eq_true hn) hin h0, hrun.output_le hstep (hlen ▸ hn), hcfg, rfl, hdir, hckey, hstep⟩

/-- R74: the operand of a command whose chunk acceptance latched. -/
theorem operand_given {d : Bytes} (hd : d.length ≤ 1024) (s : State) :
    (s.given d).operand (BitVec.ofNat 11 d.length) = d := by
  have hn : (BitVec.ofNat 11 d.length).toNat = d.length := by simp; omega
  rw [State.operand, hn, given_ldata, fit_toList (by simp; omega), List.take_left' rfl]

/-- R30, R31: the output of a completion, read back. -/
theorem complete_output {out : Bytes} (ho : out.length ≤ 1024) (c : ErrCode) (s : State) :
    (complete c out s).output = out := by
  have hlen : (complete c out s).outLen.toNat = out.length := by simp; omega
  apply List.ext_getElem
  · rw [State.output, List.length_map, List.length_range, hlen]
  · intro j hj hj'
    simp [State.output, complete_dataOutByte, hj']

/-- R134, R135: a run of updates feeds the concatenation of its chunks. -/
theorem Streaming.feed {dir : Bool} {c : Config} {k : Key} {iv : Block} {input : Bytes} {s : State} {out : Bytes}
    (h : Streaming dir c k iv input s out) {chunks : List Bytes} (hfit : chunksFit chunks) :
    ∃ t o, feed .cipherUpdate chunks s = .next (t, o) ∧
      Streaming dir c k iv (input ++ chunks.flatten) t (out ++ o) := by
  induction chunks generalizing input s out with
  | nil => exact ⟨s, [], rfl, by simpa using h⟩
  | cons d ds ih =>
    obtain ⟨hd, hds⟩ := List.forall_mem_cons.mp hfit
    have hgiven : Streaming dir c k iv input (s.given d) out := ⟨h.cfg, h.bound, h.cdir, h.ckey, h.run⟩
    obtain ⟨o, r, hchange, ho, hr⟩ := hgiven.update (n := BitVec.ofNat 11 d.length) (by simp; omega)
    rw [operand_given hd] at hr
    obtain ⟨t, o', hfeed, ht⟩ := ih (hr.complete .none o) hds
    refine ⟨t, o ++ o', ?_, by simpa using ht⟩
    simp [Machine.feed, andThen, hchange.exec, hfeed, complete_output ho]

/-- Settles O48: the run that `Streaming.feed` gives, from a fresh context. -/
theorem encryptionIgnoresTheChunking : Obligations.EncryptionIgnoresTheChunking := by
  unfold Obligations.EncryptionIgnoresTheChunking
  intro chunks s hfit hfsm hdir hcbuf m
  obtain ⟨t, out, hfeed, ht⟩ :=
    (Streaming.encrypt_fresh (by rw [hfsm]; rfl) hdir hcbuf).feed hfit
  have hrun : EncRun s.enc s.cv m t.stream out := ht.run
  exact ⟨t, out, hfeed, hrun.output_length, hrun.chain, hrun.rest, ht.ckey, ht.cdir, Fsm.eq_of_inCipher ht.bound⟩

/-- Settles O49: the same in decryption. -/
theorem decryptionIgnoresTheChunking : Obligations.DecryptionIgnoresTheChunking := by
  unfold Obligations.DecryptionIgnoresTheChunking
  intro chunks s hfit hfsm hdir hcbuf hheldv c
  obtain ⟨t, out, hfeed, ht⟩ :=
    (Streaming.decrypt_fresh (by rw [hfsm]; rfl) hdir hcbuf hheldv).feed hfit
  have hrun : DecRun s.dec s.cv c t.stream out := ht.run
  exact ⟨t, out, hfeed, hrun.held, hrun.rest, hrun.chain, Nat.eq_sub_of_add_eq hrun.output_length, ht.ckey, ht.cdir,
    Fsm.eq_of_inCipher ht.bound⟩

/-! ### A message and its ciphertext (R139 to R142, R145) -/

/-- R140, R145: a message with its padding. -/
def padded (m : Bytes) : Bytes := m ++ List.replicate (16 - m.length % 16) (BitVec.ofNat 8 (16 - m.length % 16))

/-- R145: the ciphertext of a message: the CBC encryption of the padded message. -/
def ciphertext (e : Block → Block) (iv : Block) (m : Bytes) : Bytes := (cbcEncrypt e iv (blocksOf (padded m))).2

theorem padded_length (m : Bytes) : (padded m).length = 16 * (m.length / 16 + 1) := by
  rw [padded, List.length_append, List.length_replicate]; omega

theorem padBlock_length {b : Bytes} (h : b.length ≤ 15) : (padBlock b).length = 16 := by
  rw [padBlock, List.length_append, List.length_replicate]; omega

/-- R140: the padding fills up the rest of the message. -/
theorem padBlock_restOf (m : Bytes) :
    padBlock (restOf m) = restOf m ++ List.replicate (16 - m.length % 16) (BitVec.ofNat 8 (16 - m.length % 16)) := by
  rw [padBlock, restOf_length]

theorem padBlock_restOf_length (m : Bytes) : (padBlock (restOf m)).length = 16 :=
  padBlock_length (by rw [restOf_length]; omega)

/-- R141: the padded message is the complete blocks of the message and the padded rest. -/
theorem padded_eq (m : Bytes) : padded m = m.take (16 * (m.length / 16)) ++ padBlock (restOf m) := by
  rw [padBlock_restOf, restOf, ← List.append_assoc, List.take_append_drop, padded]

theorem blocksOf_padded (m : Bytes) : blocksOf (padded m) = blocksOf m ++ [padBlock (restOf m)] := by
  have hlast : blocksOf (padBlock (restOf m)) = [padBlock (restOf m)] := by
    simpa [blocksOf, splitBlocks] using blocksOf_block_append (padBlock_restOf_length m) []
  rw [padded, (blocks_rest_append m _).1, ← padBlock_restOf, hlast]

theorem ciphertext_length (e : Block → Block) (iv : Block) (m : Bytes) :
    (ciphertext e iv m).length = 16 * (m.length / 16 + 1) := by
  rw [ciphertext, cbcEncrypt_length, blocksOf_length, padded_length, Nat.mul_div_cancel_left _ (by decide)]

/-- R158: the ciphertext's blocks decrypt to the padded message. -/
theorem cbcDecrypt_ciphertext {e d : Block → Block} (hed : ∀ x, d (e x) = x) (iv : Block) (m : Bytes) :
    (cbcDecrypt d iv (blocksOf (ciphertext e iv m))).2 = padded m := by
  rw [ciphertext, cbcDecrypt_cbcEncrypt hed iv fun _ => length_of_mem_blocksOf, blocksOf_flatten]
  rw [padded_length]; omega

/-- R158: what a whole context makes of its input: in encryption the ciphertext, in decryption the message whose
ciphertext the input is. -/
def Transforms (b : BlockCipher) (k : Key) (iv : Block) (input output : Bytes) : Bool → Prop
  | true => output = ciphertext (blockEncrypt b k) iv input
  | false => input = ciphertext (blockEncrypt b k) iv output

/-- R141: CIPHER_FINAL emits the last block of the ciphertext. -/
theorem EncRun.final {e : Block → Block} {iv : Block} {m : Bytes} {x : CipherStream} {out : Bytes}
    (h : EncRun e iv m x out) : out ++ encFinal e x = ciphertext e iv m := by
  rw [ciphertext, blocksOf_padded, cbcEncrypt_append, ← h.chain, ← h.rest]
  simp [cbcEncrypt, encFinal]

/-- R142: after the whole ciphertext of m the context holds back m's padded rest and has emitted the blocks before it. -/
theorem DecRun.final {e d : Block → Block} (hed : ∀ x, d (e x) = x) {iv : Block} {m : Bytes} {x : CipherStream}
    {out : Bytes} (h : DecRun d iv (ciphertext e iv m) x out) :
    x.cbuf = [] ∧ x.heldv = true ∧ x.held.toList = padBlock (restOf m) ∧ out ++ restOf m = m := by
  have hlen := ciphertext_length e iv m
  have hheldv : x.heldv = true := h.held.mpr (by omega)
  have hcbuf : x.cbuf = [] := by
    rw [h.rest, ← List.length_eq_zero_iff, restOf_length]; omega
  have hplain : out ++ x.held.toList = m.take (16 * (m.length / 16)) ++ padBlock (restOf m) := by
    have hsnd := congrArg Prod.snd h.chain
    rwa [if_pos hheldv, cbcDecrypt_ciphertext hed, padded_eq] at hsnd
  obtain ⟨hout, hheld⟩ := List.append_inj' hplain (by rw [padBlock_restOf_length, Vector.length_toList])
  exact ⟨hcbuf, hheldv, hheld, by rw [hout, restOf, List.take_append_drop]⟩

/-- R139, R158: CIPHER_FINAL completes the output of the context. -/
theorem Streaming.final {dir : Bool} {c : Config} {k : Key} {iv : Block} {input output : Bytes} {s : State}
    {out : Bytes} (h : Streaming dir c k iv input s out) (ht : Transforms c.blockCipher k iv input output dir) :
    ∃ o, exec .cipherFinal s = .next (Machine.complete .none o (closeCipher s)) ∧ o.length ≤ 1024 ∧
      out ++ o = output := by
  obtain ⟨rfl, hin, hdir, rfl, hrun⟩ := h
  cases dir with
  | true => exact ⟨_, execCipherFinal_encrypt hin hdir, by simp [encFinal], (EncRun.final hrun).trans ht.symm⟩
  | false =>
    obtain rfl : input = _ := ht
    obtain ⟨hcbuf, hheldv, hheld, hout⟩ := DecRun.final (cipherLawful_all s.cfg.blockCipher s.ckey) hrun
    have hrest := restOf_length output
    exact ⟨restOf output, execCipherFinal_padded hin hdir hcbuf hheldv (p := 16 - output.length % 16) (by omega)
      (by omega) (hheld.trans (padBlock_restOf output)), by omega, hout⟩

/-! ### A whole message under a passphrase (R129, R144, R158) -/

/-- R110, R115: an idle engine with the key material of a passphrase. -/
structure Keyed (c : Config) (pass : Bytes) (s : State) : Prop where
  cfg : s.cfg = c
  idle : s.fsm.idle = true
  keyv : s.keyv = true
  key : s.key = derivedKey c pass
  iv : s.iv = derivedIv c pass

theorem derive_keyed {s : State} (hidle : s.fsm.idle = true) {n : BitVec 11} {pass : Bytes}
    (hoperand : s.operand n = pass) : Keyed s.cfg pass (derive n s) :=
  ⟨rfl, hidle, rfl, by rw [derive_key, hoperand], by rw [derive_iv, hoperand]⟩

theorem Keyed.complete {c : Config} {pass : Bytes} {s : State} (h : Keyed c pass s) (code : ErrCode) (o : Bytes) :
    Keyed c pass (complete code o s) :=
  ⟨h.cfg, h.idle, h.keyv, h.key, h.iv⟩

/-- R126: CIPHER_INIT then starts a context under the passphrase's key and IV. -/
theorem Keyed.bindCipher {c : Config} {pass : Bytes} {s : State} (h : Keyed c pass s) (dir : Bool) :
    Streaming dir c (derivedKey c pass) (derivedIv c pass) [] (bindCipher dir s) [] := by
  obtain ⟨rfl, -, -, hkey, hiv⟩ := h
  rw [← hkey, ← hiv]
  exact Streaming.bindCipher dir s

/-- R74: the length of a passphrase is a legal LEN. -/
theorem lenLegal_ofNat {k : Nat} (hk : k ≤ 1024) : lenLegal (BitVec.ofNat 11 k) = true := by
  simp [lenLegal]; omega

/-- R110, R126: KDF, then CIPHER_INIT, bind a fresh context to the passphrase's key and IV. -/
theorem bindContext_streaming {s : State} (hidle : s.fsm.idle = true) {pass : Bytes} (hpass : pass.length ≤ 1024)
    (dir : Bool) :
    ∃ t, bindContext dir pass s = .next t ∧
      Streaming dir s.cfg (derivedKey s.cfg pass) (derivedIv s.cfg pass) [] t [] := by
  have hkdf : exec (.kdf (BitVec.ofNat 11 pass.length)) (s.given pass) = _ :=
    execKdf_success (lenLegal_ofNat hpass) hidle
  have hkeyed := (derive_keyed (s := s.given pass) hidle (operand_given hpass s)).complete .none []
  have hinit := execCipherInit_success hkeyed.idle hkeyed.keyv dir
  exact ⟨_, by rw [bindContext, hkdf]; exact hinit, (hkeyed.bindCipher dir).complete .none []⟩

/-- R145, R158: a whole message through a context of its own. -/
theorem transform_of_transforms {s : State} (hidle : s.fsm.idle = true) {pass : Bytes} (hpass : pass.length ≤ 1024)
    {chunks : List Bytes} (hfit : chunksFit chunks) {dir : Bool} {output : Bytes}
    (ht : Transforms s.cfg.blockCipher (derivedKey s.cfg pass) (derivedIv s.cfg pass) chunks.flatten output dir) :
    ∃ t, transform dir pass chunks s = .next (t, output) ∧ t.errcode = 0 ∧ t.fsm = .cFinal ∧ t.cfg = s.cfg := by
  obtain ⟨s0, hbind, h0⟩ := bindContext_streaming hidle hpass dir
  obtain ⟨s1, out, hfeed, h1⟩ := h0.feed hfit
  obtain ⟨o, hfinal, ho, hout⟩ := h1.final ht
  refine ⟨complete .none o (closeCipher s1), ?_, rfl, rfl, h1.cfg⟩
  simp [transform, feedAndFinish, andThen, hbind, hfeed, hfinal, complete_output ho, ← hout]

/-- Settles O50: encryption gives the ciphertext, and the message is what decryption makes of it. -/
theorem decryptionInvertsEncryption : Obligations.DecryptionInvertsEncryption := by
  unfold Obligations.DecryptionInvertsEncryption
  intro s pass chunks hidle hpass hfit
  obtain ⟨t, htransform, herr, hfsm, hcfg⟩ := transform_of_transforms (dir := true) hidle hpass hfit rfl
  refine ⟨t, _, htransform, herr, hfsm, ciphertext_length _ _ _, fun chunks' hfit' hchunks' => ?_⟩
  obtain ⟨u, hu, huerr, hufsm, -⟩ := transform_of_transforms (s := t) (dir := false) (by rw [hfsm]; rfl) hpass hfit'
    (output := chunks.flatten) (hcfg ▸ hchunks')
  exact ⟨u, hu, huerr, hufsm⟩

/-- Settles O51: without input nothing is held back, which CIPHER_FINAL answers with FINAL_LEN. -/
theorem emptyCiphertextFails : Obligations.EmptyCiphertextFails := by
  unfold Obligations.EmptyCiphertextFails
  intro s pass chunks hidle hpass hempty
  have hfit : chunksFit chunks := fun d hd => by simp [List.flatten_eq_nil_iff.mp hempty d hd]
  obtain ⟨s0, hbind, h0⟩ := bindContext_streaming hidle hpass false
  obtain ⟨s1, out, hfeed, h1⟩ := h0.feed hfit
  have hrun : DecRun (blockDecrypt s.cfg.blockCipher (derivedKey s.cfg pass)) (derivedIv s.cfg pass) [] s1.stream out :=
    hempty ▸ h1.run
  have hheldv : s1.heldv = false := by
    have hheld : ¬ s1.heldv = true := fun hv => absurd (hrun.held.mp hv).1 (by simp)
    simpa using hheld
  have hout : out = [] := by
    have hlen := hrun.output_length
    exact List.length_eq_zero_iff.mp (Nat.eq_zero_of_add_eq_zero_right hlen)
  have hfinal : exec .cipherFinal s1 = .next (complete .finalLen [] (enterFault s1)) :=
    execCipherFinal_finalLen h1.bound h1.cdir (.inr hheldv)
  refine ⟨complete .finalLen [] (enterFault s1), ?_, rfl, rfl⟩
  simp [transform, feedAndFinish, andThen, hbind, hfeed, hfinal, hout, complete_output]

end Sys2Proof.Machine
end

section
/-! PROOF. The host's side of a command and of the cipher sessions: staging, issuing, reading the output, and the
ENCRYPT and DECRYPT sessions (spec 30_encoding.md R82, 45_host_session.md R189 to R192, R196). -/

namespace Sys2Proof.Machine

/-! ### Staging bytes in DATA_IN (R82, R189) -/

/-- R82: one 8-bit write in DATA_IN stores its byte and leaves the others. -/
theorem hostWrite_dataIn {s : State} (hr : s.inReset = false) {off : Nat} (hoff : off < 1024) (b : Byte) :
    ∃ m, hostWrite (dataInOffset + off) 1 (b.setWidth 32) s = { s with mem := m, resp := some ⟨0, false⟩ } ∧
      ∀ k, k < 1024 → { s with mem := m }.dataInByte k = if k = off then b else s.dataInByte k := by
  have hlegal : accessLegal (0x400 + off) 1 = true := (accessLegal_iff _ _).mpr (.inr ⟨by omega, .inl rfl⟩)
  obtain ⟨hbyte, hframe, hstate, -⟩ := dataInHoldsWhatIsWritten s off 1 (b.setWidth 32) hr hoff hlegal
  obtain ⟨m, hm⟩ : ∃ m, m = (busAccess (.write (s.cfg.base + (0x400 + off)) 1 (b.setWidth 32)) s).mem := ⟨_, rfl⟩
  rw [← hm] at hframe hstate
  rw [hstate] at hbyte
  refine ⟨m, hstate, fun k hk => ?_⟩
  by_cases h : k = off
  · have hlow : (b.setWidth 32).extractLsb' (8 * 0) 8 = b := by
      ext i hi
      simp [hi, show i < 32 by omega]
    rw [h, if_pos rfl]
    exact (hbyte 0 (by decide)).trans hlow
  · rw [if_neg h, State.dataInByte, hframe _ (by simp; omega)]
    rfl

/-- R82: WIN changes DATA_IN, where its bytes then stand, and nothing else of the engine. -/
theorem hostWin_spec {s : State} (hr : s.inReset = false) {off : Nat} {bytes : Bytes}
    (hfit : off + bytes.length ≤ 1024) :
    ∃ m r, hostWin off bytes s = { s with mem := m, resp := r } ∧
      ∀ k, k < 1024 → { s with mem := m }.dataInByte k =
        if off ≤ k ∧ k < off + bytes.length then bytes.getD (k - off) 0 else s.dataInByte k := by
  induction bytes generalizing off s with
  | nil => exact ⟨s.mem, s.resp, rfl, fun k _ => by rw [if_neg (by rw [List.length_nil]; omega)]⟩
  | cons b bs ih =>
    rw [List.length_cons] at hfit
    obtain ⟨m, hwrite, hm⟩ := hostWrite_dataIn hr (off := off) (by omega) b
    obtain ⟨m', r', hwin, hm'⟩ := ih (s := { s with mem := m, resp := some ⟨0, false⟩ }) hr (off := off + 1) (by omega)
    refine ⟨m', r', by rw [hostWin, hwrite, hwin], fun k hk => ?_⟩
    have hk' : { s with mem := m' }.dataInByte k = _ := hm' k hk
    have hkm : { s with mem := m, resp := some ⟨0, false⟩ }.dataInByte k = _ := hm k hk
    rw [hk', hkm, List.length_cons]
    by_cases h : k = off
    · subst h
      rw [if_neg (by omega), if_pos rfl, if_pos (by omega)]
      simp
    · rw [if_neg h]
      by_cases h1 : off + 1 ≤ k ∧ k < off + 1 + bs.length
      · rw [if_pos h1, if_pos (by omega), show k - off = (k - (off + 1)) + 1 by omega]
        rfl
      · rw [if_neg h1, if_neg (by omega)]

/-! ### Issuing a command and waiting for it (R81, R189) -/

/-- R90: the engine with a command word accepted by the host's write. -/
def accepted (w : Word) (s : State) : State := { accept w s with resp := some ⟨0, false⟩ }

/-- R74, R90: the operand of an accepted command is what DATA_IN holds. -/
theorem accepted_operand (w : Word) (s : State) {n : BitVec 11} (hn : n.toNat ≤ 1024) :
    (accepted w s).operand n = (List.range n.toNat).map s.dataInByte := by
  rw [State.operand, show (accepted w s).ldata = s.dataIn from rfl, dataIn_toList, ← List.map_take, List.take_range,
    Nat.min_eq_left hn]

/-- R81, R189: a ready host that issues a command word and waits finds its completion. -/
theorem issueAndWait_eq {h : Session} (hready : h.ready) {w : Word} {u : State}
    (hu : engineStep (accepted w h.engine) = .next u) :
    ∃ r d, issueAndWait w h = .next { h with engine := u.withRead r d, polls := h.polls.tail } := by
  obtain ⟨hreset, hbusy⟩ := hready
  have hwrite : hostWrite 0x000 4 w h.engine = accepted w h.engine := busAccess_accepted hreset hbusy w
  have hwait := hostWait_of_busy (s := accepted w h.engine) hreset rfl hu (h.polls.headD 0)
  exact ⟨_, _, by rw [issueAndWait, hwrite, awaitCompletion, hwait]; rfl⟩

/-! ### Reading the result (R82) -/

section
variable {s : State}

/-- R82: RERR. -/
theorem hostRerr_eq (hr : s.inReset = false) : ∃ r d, hostRerr s = (s.withRead r d, s.errByte) := by
  have hread : hostRead 0x008 4 s = s.withRead (some ⟨s.errcode, false⟩) (s.draws + 4) :=
    busAccess_read_register hr (by simp) rfl
  exact ⟨_, _, by rw [hostRerr, hread]; rfl⟩

/-- R61, R82: one 8-bit read of a byte of the output. -/
theorem hostRead_dataOut (hr : s.inReset = false) (hb : s.busy = false) {k : Nat} (hk : k < 1024)
    (hlen : k < s.outLen.toNat) {b : Byte} (hbyte : s.dataOutByte k = some b) :
    ∃ r d, hostRead (dataOutOffset + k) 1 s = s.withRead r d ∧ (s.withRead r d).lastData.extractLsb' 0 8 = b := by
  obtain ⟨v, hread, -, hv⟩ := dataOutReads s k 1 hr hk ((accessLegal_iff _ _).mpr (.inr ⟨by omega, .inl rfl⟩))
  obtain ⟨hstored, -⟩ := hv 0 (by decide)
  exact ⟨some ⟨v, false⟩, s.draws + 1, hread, hstored hb hlen b hbyte⟩

/-- R82: n reads from index k on give n bytes of the output. -/
theorem hostReadOut_eq (hr : s.inReset = false) (hb : s.busy = false) (hfit : s.outLen.toNat ≤ 1024)
    (hheld : ∀ j, j < s.outLen.toNat → (s.dataOutByte j).isSome = true) {n k : Nat} (hn : k + n ≤ s.outLen.toNat) :
    ∃ r d, hostReadOut n k s = (s.withRead r d, (List.range n).map fun j => (s.dataOutByte (k + j)).getD 0) := by
  induction n generalizing k s with
  | zero => exact ⟨s.resp, s.draws, rfl⟩
  | succ n ih =>
    obtain ⟨b, hbyte⟩ := Option.isSome_iff_exists.mp (hheld k (by omega))
    obtain ⟨r, d, hread, hv⟩ := hostRead_dataOut hr hb (by omega) (by omega) hbyte
    obtain ⟨r', d', hrest⟩ := ih (s := s.withRead r d) hr hb hfit hheld (k := k + 1)
      (show k + 1 + n ≤ s.outLen.toNat by omega)
    refine ⟨r', d', ?_⟩
    have hshift (j : Nat) : (s.withRead r d).dataOutByte (k + 1 + j) = s.dataOutByte (k + (j + 1)) := by
      rw [Nat.add_right_comm, ← Nat.add_assoc]
      rfl
    simp only [hostReadOut, hread, hv, hrest, hshift, withRead_withRead]
    rw [List.range_succ_eq_map, List.map_cons, List.map_map, Nat.add_zero, hbyte]
    rfl

/-- R82: ROUT. -/
theorem hostRout_eq (hr : s.inReset = false) (hb : s.busy = false) (hfit : s.outLen.toNat ≤ 1024)
    (hheld : ∀ j, j < s.outLen.toNat → (s.dataOutByte j).isSome = true) :
    ∃ r d, hostRout s = (s.withRead r d, s.output) := by
  obtain ⟨t, ht⟩ : ∃ t, t = s.withRead (some ⟨s.outLenWord, false⟩) (s.draws + 4) := ⟨_, rfl⟩
  have hread : hostRead 0x00C 4 s = t := ht ▸ busAccess_read_register hr (by simp) rfl
  have hlast : t.lastData.extractLsb' 0 11 = s.outLen := by
    rw [ht]
    show s.outLenWord.extractLsb' 0 11 = s.outLen
    rw [State.outLenWord]
    ext i hi
    simp [hi]
    omega
  obtain ⟨r, d, hout⟩ := hostReadOut_eq (s := t) (n := s.outLen.toNat) (k := 0) (ht ▸ hr) (ht ▸ hb) (ht ▸ hfit)
    (ht ▸ hheld) (by rw [ht, Nat.zero_add]; exact le_refl _)
  refine ⟨r, d, ?_⟩
  rw [hostRout, hread, hlast, hout]
  simp only [Nat.zero_add, ht]
  rfl

end

/-- R189: cmd(word) for a word whose completion has no error and its output in DATA_OUT. -/
theorem hostCmdWord_ok {h : Session} (hready : h.ready) {w : Word} {u : State}
    (hu : engineStep (accepted w h.engine) = .next u) (herr : u.errcode = 0) (hfit : u.outLen.toNat ≤ 1024)
    (hheld : ∀ j, j < u.outLen.toNat → (u.dataOutByte j).isSome = true) :
    ∃ r d, hostCmdWord w h = .next ({ h with engine := u.withRead r d, polls := h.polls.tail }, .ok u.output) := by
  have hreset : u.inReset = false := (engineStep_frame hu).1.trans hready.1
  have hbusy : u.busy = false := engineStep_busy hu
  obtain ⟨r, d, hwait⟩ := issueAndWait_eq hready hu
  obtain ⟨r', d', hrerr⟩ := hostRerr_eq (s := u.withRead r d) hreset
  obtain ⟨r'', d'', hrout⟩ := hostRout_eq (s := (u.withRead r d).withRead r' d') hreset hbusy hfit hheld
  have hcode : (u.withRead r d).errByte = 0 := by
    show u.errcode.extractLsb' 0 8 = 0
    rw [herr]; rfl
  rw [withRead_withRead] at hrerr hrout
  refine ⟨r'', d'', ?_⟩
  rw [hostCmdWord, hwait]
  simp only [andThen, hrerr, hrout, hcode, if_true]
  rfl

/-- The host is ready again after a command that left the engine in u: of the session only the engine and the polls have
changed. -/
structure Returned (h : Session) (u : State) (h' : Session) : Prop where
  ready : h'.ready
  engine : ∃ r d, h'.engine = u.withRead r d
  sink : h'.sink = h.sink
  sinkOk : h'.sinkOk = h.sinkOk

/-- R189: cmd of a command that succeeds returns OK with its output. -/
theorem hostCmd_success {h : Session} (hready : h.ready) {i : Instr} (hwf : i.wf = true) {out : Bytes} {r : State}
    (hexec : exec i (accepted (encode i) h.engine) = .next (complete .none out r)) (ho : out.length ≤ 1024) :
    ∃ h', hostCmd i h = .next (h', .ok out) ∧ Returned h (complete .none out r) h' := by
  have hdecode : decode (encode i) = .command i := (decodeExactlyInvertsEncode _ i).mpr ⟨hwf, rfl⟩
  have hu : engineStep (accepted (encode i) h.engine) = .next (complete .none out r) :=
    (engineStep_command rfl hdecode).trans hexec
  have hlen : (complete .none out r).outLen.toNat = out.length := by simp; omega
  obtain ⟨x, d, hcmd⟩ := hostCmdWord_ok hready hu rfl (hlen.trans_le ho) fun j hj => by
    rw [complete_dataOutByte, if_pos (hlen ▸ hj)]
    simpa using hlen ▸ hj
  rw [complete_output ho] at hcmd
  exact ⟨_, hcmd, ⟨(engineStep_frame hu).1.trans hready.1, rfl⟩, ⟨x, d, rfl⟩, rfl, rfl⟩

/-! ### Commands with staged data (R74, R90, R189) -/

/-- R90: a is the engine s with a command accepted whose operand is `bytes`: DATA_IN, the response and what acceptance
sets are all that may differ. -/
structure Latched (s : State) (bytes : Bytes) (a : State) : Prop where
  frame : ∃ m r w l, a = { s with mem := m, resp := r, lcmd := w, ldata := l, busy := true, errcode := 0, outLen := 0 }
  operand : a.operand (BitVec.ofNat 11 bytes.length) = bytes

theorem latched_accepted (w : Word) (s : State) : Latched s [] (accepted w s) :=
  ⟨⟨_, _, _, _, rfl⟩, rfl⟩

/-- R189: put stages the bytes that the command after it takes as its operand. -/
theorem hostCmd_put {h : Session} (hready : h.ready) {bytes : Bytes} (hfit : bytes.length ≤ 1024) {i : Instr}
    (hwf : i.wf = true) :
    ∃ a, Latched h.engine bytes a ∧ ∀ {out r}, exec i a = .next (complete .none out r) → out.length ≤ 1024 →
      ∃ h', hostCmd i (hostPut bytes h) = .next (h', .ok out) ∧ Returned h (complete .none out r) h' := by
  obtain ⟨m, r, hwin, hbytes⟩ := hostWin_spec hready.1 (off := 0) (bytes := bytes) (by omega)
  have hput : hostPut bytes h = { h with engine := { h.engine with mem := m, resp := r } } := by rw [hostPut, hwin]
  have hn : (BitVec.ofNat 11 bytes.length).toNat = bytes.length := by simp; omega
  refine ⟨accepted (encode i) { h.engine with mem := m, resp := r }, ⟨⟨_, _, _, _, rfl⟩, ?_⟩, fun hexec ho => ?_⟩
  · rw [accepted_operand _ _ (hn.trans_le hfit), hn]
    apply List.ext_getElem
    · simp
    · intro k hk hk'
      have hbyte : { h.engine with mem := m, resp := r }.dataInByte k = _ := hbytes k (by omega)
      simp [hbyte, hk']
  · rw [hput]
    obtain ⟨h', hcmd, hret⟩ :=
      hostCmd_success (h := { h with engine := { h.engine with mem := m, resp := r } }) hready hwf hexec ho
    exact ⟨h', hcmd, hret.ready, hret.engine, hret.sink, hret.sinkOk⟩

/-! ### A cipher context in a session (R191, R192) -/

section
variable {dir : Bool} {c : Config} {k : Key} {iv : Block} {input out : Bytes} {s : State}

/-- R90: acceptance leaves the context alone. -/
theorem Streaming.latched (h : Streaming dir c k iv input s out) {bytes : Bytes} {a : State}
    (ha : Latched s bytes a) : Streaming dir c k iv input a out := by
  obtain ⟨m, r, w, l, rfl⟩ := ha.frame
  exact ⟨h.cfg, h.bound, h.cdir, h.ckey, h.run⟩

/-- R59, R92: so do a completion and the host's reads after it. -/
theorem Streaming.returned (hs : Streaming dir c k iv input s out) {h h' : Session} {o : Bytes}
    (hret : Returned h (Machine.complete .none o s) h') : Streaming dir c k iv input h'.engine out := by
  obtain ⟨r, d, hengine⟩ := hret.engine
  rw [hengine]
  exact ⟨hs.cfg, hs.bound, hs.cdir, hs.ckey, hs.run⟩

end

/-- R191, R192: the engine of the session streams, and what it emitted stands in the sink after `sink0`; every write to
the sink succeeds. -/
structure SessionStreaming (dir : Bool) (c : Config) (k : Key) (iv : Block) (sink0 input : Bytes) (h : Session)
    (out : Bytes) : Prop where
  ready : h.ready
  run : Streaming dir c k iv input h.engine out
  sink : h.sink = sink0 ++ out
  sinkOk : h.sinkOk = []

/-- R195: a write that the sink takes. -/
theorem sinkWrite_ok {h : Session} (hok : h.sinkOk = []) (out : Bytes)
    (k : Session → Host.Outcome (Session × HostResult) Fault Refusal) :
    sinkWrite out h k = k { h with sink := h.sink ++ out } := by
  simp [sinkWrite, hok]

section
variable {dir : Bool} {c : Config} {k : Key} {iv : Block} {sink0 input out : Bytes} {h : Session}

/-- R191, R192: one read of the source: an update with its bytes, if it has any, and the update's output to the sink. -/
theorem cipherLoop_chunk (hs : SessionStreaming dir c k iv sink0 input h out) {d : Bytes} (hd : d.length ≤ 1024)
    (rest : List SourceRead) :
    ∃ h' o, cipherLoop (.chunk d :: rest) h = cipherLoop rest h' ∧
      SessionStreaming dir c k iv sink0 (input ++ d) h' (out ++ o) := by
  obtain ⟨hready, hrun, hsink, hok⟩ := hs
  by_cases hempty : d = []
  · subst hempty
    exact ⟨h, [], by rw [cipherLoop, if_pos rfl], hready, by simpa using hrun, by simpa using hsink, hok⟩
  have hlen : (BitVec.ofNat 11 d.length).toNat ≤ 1024 := by simp; omega
  obtain ⟨a, ha, hcmd⟩ := hostCmd_put hready hd (i := .cipherUpdate (BitVec.ofNat 11 d.length)) (decide_eq_true hlen)
  obtain ⟨o, r, hchange, ho, hrun'⟩ := (hrun.latched ha).update hlen
  obtain ⟨h', hcmd, hret⟩ := hcmd hchange.exec ho
  rw [ha.operand] at hrun'
  have hrun' := hrun'.returned hret
  have hok' : h'.sinkOk = [] := hret.sinkOk.trans hok
  have hsink' : h'.sink ++ o = sink0 ++ (out ++ o) := by rw [hret.sink, hsink, List.append_assoc]
  rw [cipherLoop, if_neg hempty, hcmd]
  by_cases hnone : o = []
  · subst hnone
    exact ⟨h', [], rfl, hret.ready, hrun', by simpa using hsink', hok'⟩
  · refine ⟨{ h' with sink := h'.sink ++ o }, o, ?_, hret.ready, hrun', hsink', hok'⟩
    simp only [onOk, andThen, if_neg hnone]
    exact sinkWrite_ok hok' o _

/-- R191, R192, R196: the reads of the source feed the bytes they carry. -/
theorem cipherLoop_reads {src : List SourceRead} (hsrc : sourceFine src)
    (hs : SessionStreaming dir c k iv sink0 input h out) :
    ∃ h' o, cipherLoop src h = cipherLoop [] h' ∧
      SessionStreaming dir c k iv sink0 (input ++ sourceBytes src) h' (out ++ o) := by
  induction src generalizing input h out with
  | nil => exact ⟨h, [], rfl, by simpa [sourceBytes] using hs⟩
  | cons r rest ih =>
    obtain ⟨hr, hrest⟩ := List.forall_mem_cons.mp hsrc
    obtain ⟨d, rfl, hd⟩ := hr
    obtain ⟨h1, o1, hloop1, hs1⟩ := cipherLoop_chunk hs hd rest
    obtain ⟨h2, o2, hloop2, hs2⟩ := ih hrest hs1
    exact ⟨h2, o1 ++ o2, hloop1.trans hloop2, by simpa [sourceBytes] using hs2⟩

/-- R191, R192: at the end of the source the final command and its output to the sink. -/
theorem cipherLoop_final (hs : SessionStreaming dir c k iv sink0 input h out) {output : Bytes}
    (ht : Transforms c.blockCipher k iv input output dir) :
    ∃ h', cipherLoop [] h = .next (h', .ok []) ∧ h'.ready ∧ h'.engine.cfg = c ∧ h'.sink = sink0 ++ output := by
  obtain ⟨hready, hrun, hsink, hok⟩ := hs
  have hrun := hrun.latched (latched_accepted (encode .cipherFinal) h.engine)
  obtain ⟨o, hexec, ho, hout⟩ := hrun.final ht
  obtain ⟨h', hcmd, hret⟩ := hostCmd_success hready (i := .cipherFinal) rfl hexec ho
  obtain ⟨r, d, hengine⟩ := hret.engine
  refine ⟨{ h' with sink := h'.sink ++ o }, ?_, hret.ready, ?_, ?_⟩
  · simp only [cipherLoop, hcmd, onOk, andThen]
    exact sinkWrite_ok (hret.sinkOk.trans hok) o _
  · rw [hengine]
    exact hrun.cfg
  · rw [hret.sink, hsink, List.append_assoc, hout]

end

/-- R90: acceptance leaves the key material alone. -/
theorem Keyed.latched {c : Config} {pass : Bytes} {s : State} (h : Keyed c pass s) {bytes : Bytes} {a : State}
    (ha : Latched s bytes a) : Keyed c pass a := by
  obtain ⟨m, r, w, l, rfl⟩ := ha.frame
  exact ⟨h.cfg, h.idle, h.keyv, h.key, h.iv⟩

/-- R59, R92: so do a completion and the host's reads after it. -/
theorem Keyed.returned {c : Config} {pass : Bytes} {s : State} (hs : Keyed c pass s) {h h' : Session} {o : Bytes}
    (hret : Returned h (Machine.complete .none o s) h') : Keyed c pass h'.engine := by
  obtain ⟨r, d, hengine⟩ := hret.engine
  rw [hengine]
  exact ⟨hs.cfg, hs.idle, hs.keyv, hs.key, hs.iv⟩

/-- R110, R191, R192: KDF with the staged passphrase, on an idle engine. -/
theorem hostCmd_kdf {h : Session} (hready : h.ready) (hidle : h.engine.fsm.idle = true) {pass : Bytes}
    (hpass : pass.length ≤ 1024) :
    ∃ h', hostCmd (.kdf (BitVec.ofNat 11 pass.length)) (hostPut pass h) = .next (h', .ok []) ∧ h'.ready ∧
      Keyed h.engine.cfg pass h'.engine ∧ h'.sink = h.sink ∧ h'.sinkOk = h.sinkOk := by
  obtain ⟨a, ha, hcmd⟩ := hostCmd_put hready hpass (i := .kdf (BitVec.ofNat 11 pass.length)) (lenLegal_ofNat hpass)
  obtain ⟨m, r, w, l, hframe⟩ := ha.frame
  have hidle : a.fsm.idle = true := by rw [hframe]; exact hidle
  have hcfg : a.cfg = h.engine.cfg := by rw [hframe]
  obtain ⟨h', hcmd, hret⟩ := hcmd (execKdf_success (lenLegal_ofNat hpass) hidle) (by simp)
  have hkeyed := (derive_keyed hidle ha.operand).returned hret
  rw [hcfg] at hkeyed
  exact ⟨h', hcmd, hret.ready, hkeyed, hret.sink, hret.sinkOk⟩

/-- R126, R191, R192: CIPHER_INIT, whatever bytes were staged over the passphrase. -/
theorem hostCmd_cipherInit {h : Session} (hready : h.ready) {c : Config} {pass : Bytes} (hkeyed : Keyed c pass h.engine)
    (hok : h.sinkOk = []) {bytes : Bytes} (hfit : bytes.length ≤ 1024) (dir : Bool) :
    ∃ h', hostCmd (.cipherInit dir) (hostPut bytes h) = .next (h', .ok []) ∧
      SessionStreaming dir c (derivedKey c pass) (derivedIv c pass) h.sink [] h' [] := by
  obtain ⟨a, ha, hcmd⟩ := hostCmd_put hready hfit (i := .cipherInit dir) rfl
  have hkeyed := hkeyed.latched ha
  obtain ⟨h', hcmd, hret⟩ := hcmd (execCipherInit_success hkeyed.idle hkeyed.keyv dir) (by simp)
  exact ⟨h', hcmd, hret.ready, (hkeyed.bindCipher dir).returned hret, by rw [hret.sink, List.append_nil],
    hret.sinkOk.trans hok⟩

/-- R191, R192: the commands before the first read of the source: CLEAR, KDF with the passphrase, and CIPHER_INIT with
the staged passphrase overwritten. -/
theorem cipherSession_start {h : Session} (hready : h.ready) (hok : h.sinkOk = []) {pass : Bytes}
    (hpass : pass.length ≤ 1024) (dir : Bool) (src : List SourceRead) :
    ∃ h', cipherSession dir ⟨true, true, true⟩ pass src h = cipherLoop src h' ∧
      SessionStreaming dir h.engine.cfg (derivedKey h.engine.cfg pass) (derivedIv h.engine.cfg pass) h.sink [] h'
        [] := by
  obtain ⟨h1, hclear, hret1⟩ := hostCmd_success hready (i := .clear) rfl (execClear_eq _) (by simp)
  obtain ⟨r, d, hengine1⟩ := hret1.engine
  have hidle1 : h1.engine.fsm.idle = true := by rw [hengine1]; rfl
  have hcfg1 : h1.engine.cfg = h.engine.cfg := by rw [hengine1]; rfl
  obtain ⟨h2, hkdf, hready2, hkeyed2, hsink2, hok2⟩ := hostCmd_kdf hret1.ready hidle1 hpass
  obtain ⟨h3, hinit, hs3⟩ := hostCmd_cipherInit hready2 hkeyed2 (hok2.trans (hret1.sinkOk.trans hok))
    (bytes := List.replicate pass.length 0) (by simpa using hpass) dir
  rw [hsink2, hret1.sink, hcfg1] at hs3
  have hshort : ¬ chunkMax < pass.length := Nat.not_lt.mpr hpass
  refine ⟨h3, ?_, hs3⟩
  simp only [cipherSession, hclear, onOk, andThen, if_neg hshort, hkdf, hinit, Bool.and_self, if_true]

/-- R191, R192: an ENCRYPT or DECRYPT session whose source and sink do not fail returns OK and writes what the
context makes of the source. -/
theorem cipherSession_of_transforms {h : Session} (hready : h.ready) (hok : h.sinkOk = []) {pass : Bytes}
    (hpass : pass.length ≤ 1024) {src : List SourceRead} (hsrc : sourceFine src) {dir : Bool} {output : Bytes}
    (ht : Transforms h.engine.cfg.blockCipher (derivedKey h.engine.cfg pass) (derivedIv h.engine.cfg pass)
      (sourceBytes src) output dir) :
    ∃ h', cipherSession dir ⟨true, true, true⟩ pass src h = .next (h', .ok []) ∧ h'.ready ∧
      h'.engine.cfg = h.engine.cfg ∧ h'.sink = h.sink ++ output := by
  obtain ⟨h1, hstart, hs1⟩ := cipherSession_start hready hok hpass dir src
  obtain ⟨h2, o, hreads, hs2⟩ := cipherLoop_reads hsrc hs1
  obtain ⟨h3, hfinal, hready3, hcfg3, hsink3⟩ := cipherLoop_final hs2 ht
  exact ⟨h3, by rw [hstart, hreads, hfinal], hready3, hcfg3, hsink3⟩

/-- Settles O59: the first session writes the ciphertext of the source, and the second makes the source of it. -/
theorem decryptSessionInvertsEncryptSession : Obligations.DecryptSessionInvertsEncryptSession := by
  unfold Obligations.DecryptSessionInvertsEncryptSession
  intro h pass src hready hok hpass hsrc
  obtain ⟨h', henc, hready', hcfg, hsink⟩ := cipherSession_of_transforms (dir := true) hready hok hpass hsrc rfl
  refine ⟨h', _, henc, hsink, ciphertext_length _ _ _, fun src' hsrc' hbytes polls' => ?_⟩
  obtain ⟨h'', hdec, -, -, hsink'⟩ := cipherSession_of_transforms (h := ⟨h'.engine, polls', [], []⟩) (dir := false)
    hready' rfl hpass hsrc' (output := sourceBytes src) (hcfg ▸ hbytes)
  exact ⟨h'', hdec, hsink'⟩

end Sys2Proof.Machine
end

section
/-! PROOF. The digest commands one by one, and a hash context from DIGEST_INIT to DIGEST_FINAL: its state depends on
the concatenated input only, and what it emits is the SHA-256 of that input (spec 43_digest.md R160 to R162, R170 to
R172). -/

namespace Sys2Proof.Machine

/-! ### DIGEST_INIT (R160) -/

/-- Settles O52: the completed state is `bindDigest`'s. -/
theorem digestInitStartsAFreshContext : Obligations.DigestInitStartsAFreshContext := by
  unfold Obligations.DigestInitStartsAFreshContext
  intro s hlegal
  obtain ⟨-, -, hidle⟩ := idle_eq_legalIn 0 true s.fsm
  exact (Change.bindDigest (hidle.trans hlegal)).exec

/-! ### The chaining value over the complete blocks (R161, R171) -/

/-- The bytes after the complete 64-byte blocks of a string. -/
def unhashed (t : Bytes) : Bytes := t.drop (64 * (t.length / 64))

theorem unhashed_length (t : Bytes) : (unhashed t).length = t.length % 64 := by
  rw [unhashed, List.length_drop]; omega

/-- R161: the chaining value after the first k blocks of a string. -/
def chainAfter (h : HashWords) (t : Bytes) (k : Nat) : HashWords := (splitBlocks 64 k t).foldl compress h

theorem chainAfter_zero (h : HashWords) (t : Bytes) : chainAfter h t 0 = h := rfl

/-- More blocks are compressed from where the first ones lead. -/
theorem chainAfter_add (h : HashWords) (t : Bytes) (j k : Nat) :
    chainAfter h t (j + k) = chainAfter (chainAfter h t j) (t.drop (64 * j)) k := by
  simp only [chainAfter, splitBlocks_append, List.foldl_append]

theorem chainAfter_succ (h : HashWords) (t : Bytes) (j : Nat) :
    chainAfter h t (j + 1) = compress (chainAfter h t j) ((t.drop (64 * j)).take 64) :=
  chainAfter_add h t j 1

theorem compressAll_eq (h : HashWords) (t : Bytes) : compressAll h t = chainAfter h t (t.length / 64) := rfl

/-- What follows only meets the bytes not hashed yet: the blocks before them are compressed already. -/
theorem compressAll_append (h : HashWords) (m d : Bytes) :
    compressAll h (m ++ d) = compressAll (compressAll h m) (unhashed m ++ d) ∧
      unhashed (m ++ d) = unhashed (unhashed m ++ d) := by
  have hcut : 64 * (m.length / 64) ≤ m.length := by omega
  have hrest : (m ++ d).drop (64 * (m.length / 64)) = unhashed m ++ d := List.drop_append_of_le_length hcut
  have hcount : (m ++ d).length / 64 = m.length / 64 + (unhashed m ++ d).length / 64 := by
    simp only [List.length_append, unhashed_length]; omega
  have hfirst : chainAfter h (m ++ d) (m.length / 64) = compressAll h m := by
    rw [chainAfter, splitBlocks_take 64 _ m d hcut]
    rfl
  constructor
  · rw [compressAll_eq h (m ++ d), hcount, chainAfter_add, hfirst, hrest, ← compressAll_eq]
  · rw [unhashed, hcount, Nat.mul_add, ← List.drop_drop, hrest]
    rfl

/-! ### DIGEST_UPDATE (R161) -/

/-- R94: the table's states of the digest commands are those of a bound hash context. -/
theorem inDigest_of_legal_update {n : BitVec 11} {f : Fsm} (h : legalIn (.digestUpdate n) f = true) :
    f.inDigest = true := by
  rw [(inDigest_eq_legalIn n f).1, h]

theorem inDigest_of_legal_final {f : Fsm} (h : legalIn .digestFinal f = true) : f.inDigest = true := by
  rw [(inDigest_eq_legalIn 0 f).2, h]

/-- R74: the operand of a legal LEN is LEN bytes long. -/
theorem operand_length {n : BitVec 11} (hn : n.toNat ≤ 1024) (s : State) : (s.operand n).length = n.toNat := by
  simp [State.operand, hn]

/-- R38: HLEN counts modulo 2^61. -/
theorem absorb_hlen_toNat (d : Bytes) (s : State) :
    (absorb d s).hlen.toNat = (s.hlen.toNat + d.length) % 2 ^ 61 := by
  rw [absorb_hlen, BitVec.toNat_add, BitVec.toNat_ofNat, Nat.add_mod_mod]

/-- Settles O53: the completed state is `absorb`'s, whose HS is the chain over the complete blocks. -/
theorem digestUpdateFoldsTheChunk : Obligations.DigestUpdateFoldsTheChunk := by
  unfold Obligations.DigestUpdateFoldsTheChunk
  intro s n hn hlegal t nb
  have hexec := (Change.absorb n (decide_eq_true hn) (inDigest_of_legal_update hlegal)).exec
  have hhlen := absorb_hlen_toNat (s.operand n) s
  rw [operand_length hn] at hhlen
  exact ⟨_, chainAfter s.hs t, hexec, chainAfter_zero s.hs t, fun j _ => chainAfter_succ s.hs t j,
    compressAll_eq s.hs t, rfl, hhlen, rfl⟩

/-! ### DIGEST_FINAL (R162, R170) -/

/-- R162, R171: the digest's bytes, word by word. -/
theorem hashBytes_eq (h : HashWords) :
    hashBytes h = [h.w0, h.w1, h.w2, h.w3, h.w4, h.w5, h.w6, h.w7].flatMap toBE32 := rfl

/-- R162: DIGEST holds the digest. -/
theorem closeDigest_digest_toList (s : State) : (closeDigest s).digest.toList = s.finalDigest :=
  fit_toList (finalDigest_length s)

/-- Settles O54: the output is `finalDigest`, with R170's padding written out. -/
theorem digestFinalEmitsTheDigest : Obligations.DigestFinalEmitsTheDigest := by
  unfold Obligations.DigestFinalEmitsTheDigest
  intro s hlegal z t h
  have hexec := (Change.closeDigest (inDigest_of_legal_final hlegal)).exec
  have hpadded : s.hbuf ++ pad256 s.hlen.toNat = t := by simp only [t, z, pad256, List.append_assoc]; rfl
  have hout : s.finalDigest = hashBytes h := by rw [State.finalDigest, hpadded]
  exact ⟨_, s.finalDigest, hexec, complete_emitted _ _ _ rfl, finalDigest_length s, closeDigest_digest_toList s,
    hout.trans (hashBytes_eq h), rfl⟩

/-! ### A hash context (R172) -/

/-- R172: s holds a hash context that has been fed m since DIGEST_INIT: the complete blocks of m are compressed, the
rest waits in HBUF. -/
structure Hashing (m : Bytes) (s : State) : Prop where
  bound : s.fsm.inDigest = true
  hs : s.hs = compressAll shaH0 m
  hbuf : s.hbuf = unhashed m
  hlen : s.hlen.toNat = m.length % 2 ^ 61

/-- R160: DIGEST_INIT binds a fresh context. -/
theorem Hashing.bindDigest (s : State) : Hashing [] (bindDigest s) := ⟨rfl, rfl, rfl, rfl⟩

section
variable {m : Bytes} {s : State}

/-- R92: a completion leaves the context alone. -/
theorem Hashing.complete (h : Hashing m s) (code : ErrCode) (o : Bytes) : Hashing m (complete code o s) :=
  ⟨h.bound, h.hs, h.hbuf, h.hlen⟩

/-- R161: an update appends its chunk to what was fed. -/
theorem Hashing.absorb (h : Hashing m s) (d : Bytes) : Hashing (m ++ d) (absorb d s) := by
  obtain ⟨hchain, hrest⟩ := compressAll_append shaH0 m d
  refine ⟨rfl, ?_, ?_, ?_⟩
  · rw [absorb_hs, h.hs, h.hbuf, hchain]
  · rw [absorb_hbuf, h.hbuf, hrest]
    rfl
  · rw [absorb_hlen_toNat, h.hlen, List.length_append, Nat.mod_add_mod]

/-- R172: a run of updates feeds the concatenation of its chunks and emits nothing. -/
theorem Hashing.feed (h : Hashing m s) {chunks : List Bytes} (hfit : chunksFit chunks) :
    ∃ t, feed .digestUpdate chunks s = .next (t, []) ∧ Hashing (m ++ chunks.flatten) t := by
  induction chunks generalizing m s with
  | nil => exact ⟨s, rfl, by simpa using h⟩
  | cons d ds ih =>
    obtain ⟨hd, hds⟩ := List.forall_mem_cons.mp hfit
    have hgiven : Hashing m (s.given d) := ⟨h.bound, h.hs, h.hbuf, h.hlen⟩
    have hexec := (Change.absorb (s := s.given d) _ (lenLegal_ofNat hd) h.bound).exec
    rw [operand_given hd] at hexec
    obtain ⟨t, hfeed, ht⟩ := ih ((hgiven.absorb d).complete .none []) hds
    refine ⟨t, ?_, by simpa using ht⟩
    simp [Machine.feed, andThen, hexec, hfeed, complete_output]

/-- R162, R171: the digest of a context is the SHA-256 of what it was fed, where HLEN has not wrapped. -/
theorem Hashing.finalDigest (h : Hashing m s) (hm : m.length < 2 ^ 61) : s.finalDigest = sha256 m := by
  obtain ⟨hchain, -⟩ := compressAll_append shaH0 m (pad256 m.length)
  rw [State.finalDigest, h.hs, h.hbuf, h.hlen, Nat.mod_eq_of_lt hm, ← hchain, sha256]

end

/-- Settles O55: DIGEST_INIT starts the run, the updates feed it, and DIGEST_FINAL emits its digest. -/
theorem streamedDigestIsSha256 : Obligations.StreamedDigestIsSha256 := by
  unfold Obligations.StreamedDigestIsSha256
  intro s chunks hidle hfit hm
  obtain ⟨s1, hfeed, h1⟩ := ((Hashing.bindDigest s).complete .none []).feed hfit
  have hdigest : s1.finalDigest = sha256 chunks.flatten := h1.finalDigest hm
  have hfinal := (Change.closeDigest h1.bound).exec
  have hout : (complete .none s1.finalDigest (closeDigest s1)).output = s1.finalDigest :=
    complete_output (by simp [finalDigest_length]) _ _
  refine ⟨_, complete .none s1.finalDigest (closeDigest s1), (Change.bindDigest hidle).exec, ?_, rfl, rfl,
    (closeDigest_digest_toList s1).trans hdigest⟩
  rw [← hdigest]
  simp [feedAndFinish, andThen, hfeed, hfinal, hout]

end Sys2Proof.Machine
end

section
/-! PROOF. The hexadecimal formatter and HEX (spec 44_hex.md R185 to R187): a digit's character by its number, where
the characters of a byte stand in the output, and how they give the byte back. -/

namespace Sys2Proof.Machine

/-! ### One digit (R185) -/

section
variable (v : BitVec 4)

/-- R185, by the digit's number. -/
theorem hexChar_eq_ofNat :
    hexChar v = BitVec.ofNat 8 (if v.toNat < 10 then 0x30 + v.toNat else 0x61 + (v.toNat - 10)) := by
  unfold hexChar
  split <;> bv_omega

theorem hexChar_toNat : (hexChar v).toNat = if v.toNat < 10 then 0x30 + v.toNat else 0x61 + (v.toNat - 10) := by
  have hv := v.isLt
  rw [hexChar_eq_ofNat, BitVec.toNat_ofNat]
  split <;> omega

/-- R185: '0' to '9' and 'a' to 'f', no other byte. -/
theorem hexChar_isLowerDigit :
    (0x30 ≤ (hexChar v).toNat ∧ (hexChar v).toNat ≤ 0x39) ∨ (0x61 ≤ (hexChar v).toNat ∧ (hexChar v).toNat ≤ 0x66) := by
  have hv := v.isLt
  rw [hexChar_toNat]
  split <;> omega

end

/-- R187: a character tells its digit, since the ranges of '0' to '9' and of 'a' to 'f' do not meet. -/
theorem hexChar_injective : Function.Injective hexChar := by
  intro v w h
  have hnum := congrArg BitVec.toNat h
  rw [hexChar_toNat, hexChar_toNat] at hnum
  apply BitVec.eq_of_toNat_eq
  split at hnum <;> split at hnum <;> omega

/-! ### The two digits of a byte (R186) -/

section
variable (b : Byte)

theorem highNibble_toNat : (b.extractLsb' 4 4).toNat = b.toNat / 16 := by
  have hb := b.isLt
  rw [BitVec.extractLsb'_toNat, Nat.shiftRight_eq_div_pow]
  omega

theorem lowNibble_toNat : (b.extractLsb' 0 4).toNat = b.toNat % 16 := by
  rw [BitVec.extractLsb'_toNat, Nat.shiftRight_zero]

end

/-- R187: a byte is read back from its two characters. -/
theorem hexPair_injective : Function.Injective hexPair := by
  intro b c h
  obtain ⟨hhigh, hlow⟩ : hexChar (b.extractLsb' 4 4) = hexChar (c.extractLsb' 4 4) ∧
      hexChar (b.extractLsb' 0 4) = hexChar (c.extractLsb' 0 4) := by simpa [hexPair] using h
  have hdiv := congrArg BitVec.toNat (hexChar_injective hhigh)
  have hmod := congrArg BitVec.toNat (hexChar_injective hlow)
  rw [highNibble_toNat, highNibble_toNat] at hdiv
  rw [lowNibble_toNat, lowNibble_toNat] at hmod
  apply BitVec.eq_of_toNat_eq
  omega

/-! ### A byte string (R186, R187) -/

theorem hexString_cons (b : Byte) (d : Bytes) : hexString (b :: d) = hexPair b ++ hexString d :=
  List.flatMap_cons

/-- R186: characters 2k and 2k + 1 are those of byte k. -/
theorem hexString_getElem? {d : Bytes} {k : Nat} {b : Byte} (h : d[k]? = some b) :
    (hexString d)[2 * k]? = some (hexChar (b.extractLsb' 4 4)) ∧
      (hexString d)[2 * k + 1]? = some (hexChar (b.extractLsb' 0 4)) := by
  induction d generalizing k with
  | nil => simp at h
  | cons c d ih =>
    rw [hexString_cons]
    cases k with
    | zero =>
      obtain rfl : c = b := by simpa using h
      exact ⟨rfl, rfl⟩
    | succ k => exact ih (by simpa using h)

/-- R187: the byte strings are compared byte by byte, each byte by its pair of characters. -/
theorem hexString_injective : Function.Injective hexString := by
  intro d d' h
  induction d generalizing d' with
  | nil =>
    cases d' with
    | nil => rfl
    | cons c d' => cases h
  | cons b d ih =>
    cases d' with
    | nil => cases h
    | cons c d' =>
      rw [hexString_cons, hexString_cons] at h
      obtain ⟨hpair, hrest⟩ := List.append_inj h rfl
      rw [hexPair_injective hpair, ih hrest]

/-- R185: every character of the output is the character of a digit. -/
theorem exists_hexChar_of_mem_hexString {d : Bytes} {c : Byte} (h : c ∈ hexString d) : ∃ v, c = hexChar v := by
  obtain ⟨b, -, hc⟩ := List.mem_flatMap.mp h
  obtain hhigh | hlow : c = hexChar (b.extractLsb' 4 4) ∨ c = hexChar (b.extractLsb' 0 4) := by
    simpa [hexPair] using hc
  · exact ⟨_, hhigh⟩
  · exact ⟨_, hlow⟩

/-- Settles O57, byte by byte from the injectivity and the range of one digit's character. -/
theorem hexIsInjective : Obligations.HexIsInjective := by
  unfold Obligations.HexIsInjective
  refine ⟨fun d d' h => hexString_injective h, fun d => ⟨hexString_length d, fun c hc => ?_⟩⟩
  obtain ⟨v, rfl⟩ := exists_hexChar_of_mem_hexString hc
  exact hexChar_isLowerDigit v

/-! ### HEX (R186) -/

/-- R94: the state table has HEX in D_FINAL only. -/
theorem dFinal_of_legal_hex {f : Fsm} (h : legalIn .hex f = true) : f = .dFinal := by
  rw [← digestReady_eq_legalIn] at h
  exact eq_of_beq h

/-- Settles O56: the output is `hexString` of DIGEST's 32 bytes, with the two digits of a byte as numbers. -/
theorem hexFormatsTheDigest : Obligations.HexFormatsTheDigest := by
  unfold Obligations.HexFormatsTheDigest
  intro s hlegal digit
  have hlength : (hexString s.digest.toList).length = 64 := by simp [hexString_length]
  refine ⟨_, hexString s.digest.toList, (Change.hex (dFinal_of_legal_hex hlegal)).exec, complete_emitted _ _ _ rfl,
    hlength, fun k b hb => ?_, ?_⟩
  · obtain ⟨hhigh, hlow⟩ := hexString_getElem? hb
    rw [hexChar_eq_ofNat, highNibble_toNat] at hhigh
    rw [hexChar_eq_ofNat, lowNibble_toNat] at hlow
    exact ⟨hhigh, hlow⟩
  · rw [complete, hlength]
    rfl

end Sys2Proof.Machine
end

section
/-! PROOF. The result of cmd(word) for every word, and the CHECKSUM session (spec 45_host_session.md R189, R193, R196,
R200, R202). -/

namespace Sys2Proof.Machine

/-! ### A command that fails (R189, R200, R202) -/

/-- R202: giving up leaves the engine cleared and the host ready. -/
theorem giveUp_eq {h : Session} (hready : h.ready) (r : HostResult) :
    ∃ h', giveUp r h = .next (h', r) ∧ h'.ready ∧ h'.engine.fsm = .uninit ∧ h'.sink = h.sink := by
  have hdecode : decode (encode .clear) = .command .clear := by decide
  have hclear := (engineStep_command (s := accepted (encode .clear) h.engine) rfl hdecode).trans Change.clear.exec
  obtain ⟨x, d, hwait⟩ := issueAndWait_eq hready hclear
  have hgive : giveUp r h = _ := congrArg (andThen · fun h => .next (h, r)) hwait
  exact ⟨_, hgive, ⟨hready.1, rfl⟩, rfl, rfl⟩

/-- R189, R200: cmd(word) for a word whose completion has an error, which the host reads before it gives up. -/
theorem hostCmdWord_error {h : Session} (hready : h.ready) {w : Word} {u : State}
    (hu : engineStep (accepted w h.engine) = .next u) (herr : u.errByte ≠ 0) (hinv : u.Inv) :
    ∃ h', Returned h u h' ∧ hostCmdWord w h = giveUp (.fail (codeKind u.errByte) u.errByte.toNat) h' := by
  have hreset : u.inReset = false := (engineStep_frame hu).1.trans hready.1
  have hbusy : u.busy = false := engineStep_busy hu
  obtain ⟨r, d, hwait⟩ := issueAndWait_eq hready hu
  obtain ⟨r', d', hrerr⟩ := hostRerr_eq (s := u.withRead r d) hreset
  obtain ⟨r'', d'', hrout⟩ := hostRout_eq (s := (u.withRead r d).withRead r' d') hreset hbusy (hinv.outputFits hbusy)
    (hinv.outputHeld hbusy)
  have hcode : (u.withRead r d).errByte = u.errByte := rfl
  rw [withRead_withRead] at hrerr hrout
  refine ⟨{ h with engine := u.withRead r'' d'', polls := h.polls.tail }, ⟨⟨hreset, hbusy⟩, ⟨_, _, rfl⟩, rfl, rfl⟩, ?_⟩
  rw [hostCmdWord, hwait]
  simp only [andThen, hrerr, hrout, hcode, if_neg herr]
  rfl

/-- R29, R211: of the values ERRCODE takes, CODE is zero in 0 alone, and KIND is the kind of CODE. -/
theorem errcode_code_kind :
    ∀ e ∈ legalErrcodes, (e ≠ 0 → e.extractLsb' 0 8 ≠ 0) ∧ codeKind (e.extractLsb' 0 8) = (e.extractLsb' 8 2).toNat := by
  simp [legalErrcodes, codeKind]

/-- R189, R200, R202: cmd(word) for a word whose completion has an error. -/
theorem hostCmdWord_fail {h : Session} (hready : h.ready) {w : Word} {u : State}
    (hu : engineStep (accepted w h.engine) = .next u) (herr : u.errcode ≠ 0) (hinv : u.Inv) :
    ∃ h', hostCmdWord w h = .next (h', .fail u.errKind.toNat u.errByte.toNat) ∧ h'.ready ∧
      h'.engine.fsm = .uninit ∧ h'.sink = h.sink := by
  obtain ⟨hcode, hkind⟩ := errcode_code_kind u.errcode hinv.errcodeLegal
  have hkind : codeKind u.errByte = u.errKind.toNat := hkind
  obtain ⟨h1, hret, hcmd⟩ := hostCmdWord_error hready hu (hcode herr) hinv
  obtain ⟨h', hclear, hready', hfsm, hsink⟩ := giveUp_eq hret.ready (.fail u.errKind.toNat u.errByte.toNat)
  exact ⟨h', by rw [hcmd, hkind, hclear], hready', hfsm, hsink.trans hret.sink⟩

/-- R90, R93, R95: an accepted word that decoding rejects completes with its code. -/
theorem engineStep_accepted_illegal {w : Word} {s u : State} (hu : engineStep (accepted w s) = .next u) :
    (decode w = .badcmd → u.errcode = 0x102) ∧ (decode w = .badlen → u.errcode = 0x103) := by
  constructor
  · intro hd
    cases hu.symm.trans (engineStep_illegal (s := accepted w s) rfl (.inl ⟨hd, rfl⟩))
    rfl
  · intro hd
    cases hu.symm.trans (engineStep_illegal (s := accepted w s) rfl (.inr ⟨hd, rfl⟩))
    rfl

/-- Settles O60, by ERRCODE of the completion: without an error the output is read, with one the host gives up. -/
theorem commandResultFollowsTheErrorCode : Obligations.CommandResultFollowsTheErrorCode := by
  unfold Obligations.CommandResultFollowsTheErrorCode
  intro h w hready hinv
  have haccess : busAccess (.write h.engine.cfg.base 4 w) h.engine = accepted w h.engine :=
    busAccess_accepted hready.1 hready.2 w
  have hinv := busAccess_inv hinv (.write h.engine.cfg.base 4 w)
  rw [haccess] at hinv ⊢
  obtain ⟨u, hu⟩ := engineStep_next (accepted w h.engine)
  have hinvU : u.Inv := engineStep_inv hinv hu
  have hbusy : u.busy = false := engineStep_busy hu
  obtain ⟨hbadcmd, hbadlen⟩ := engineStep_accepted_illegal hu
  by_cases herr : u.errcode = 0
  · obtain ⟨r, d, hcmd⟩ := hostCmdWord_ok hready hu herr (hinvU.outputFits hbusy) (hinvU.outputHeld hbusy)
    refine ⟨u, _, _, hu, hcmd, ⟨(engineStep_frame hu).1.trans hready.1, hbusy⟩, rfl, fun _ => ⟨rfl, rfl⟩,
      fun hne => absurd herr hne, fun hd => ?_, fun hd => ?_⟩
    · exact absurd ((hbadcmd hd).symm.trans herr) (by decide)
    · exact absurd ((hbadlen hd).symm.trans herr) (by decide)
  · obtain ⟨h', hcmd, hready', hfsm, hsink⟩ := hostCmdWord_fail hready hu herr hinvU
    refine ⟨u, h', _, hu, hcmd, hready', hsink, fun h0 => absurd h0 herr, fun _ => ⟨rfl, hfsm⟩, fun hd => ?_,
      fun hd => ?_⟩
    · rw [State.errKind, State.errByte, hbadcmd hd]; rfl
    · rw [State.errKind, State.errByte, hbadlen hd]; rfl

/-! ### A hash context in a session (R193) -/

section
variable {m : Bytes} {s : State}

/-- R90: acceptance leaves the context alone. -/
theorem Hashing.latched (h : Hashing m s) {bytes : Bytes} {a : State} (ha : Latched s bytes a) : Hashing m a := by
  obtain ⟨x, r, w, l, rfl⟩ := ha.frame
  exact ⟨h.bound, h.hs, h.hbuf, h.hlen⟩

/-- R59, R92: so do a completion and the host's reads after it. -/
theorem Hashing.returned (hs : Hashing m s) {h h' : Session} {o : Bytes}
    (hret : Returned h (Machine.complete .none o s) h') : Hashing m h'.engine := by
  obtain ⟨r, d, hengine⟩ := hret.engine
  rw [hengine]
  exact ⟨hs.bound, hs.hs, hs.hbuf, hs.hlen⟩

end

/-- R193: the engine of the session holds a hash context that has been fed m, and the sink is as it was. -/
structure SessionHashing (sink0 m : Bytes) (h : Session) : Prop where
  ready : h.ready
  run : Hashing m h.engine
  sink : h.sink = sink0

section
variable {sink0 m : Bytes} {h : Session}

/-- R193, R196: one read of the source: an update with its bytes, if it has any. -/
theorem checksumLoop_chunk (hs : SessionHashing sink0 m h) {c : Bytes} (hc : c.length ≤ 1024)
    (rest : List SourceRead) :
    ∃ h', checksumLoop (.chunk c :: rest) h = checksumLoop rest h' ∧ SessionHashing sink0 (m ++ c) h' := by
  obtain ⟨hready, hrun, hsink⟩ := hs
  by_cases hempty : c = []
  · subst hempty
    exact ⟨h, by rw [checksumLoop, if_pos rfl], hready, by simpa using hrun, hsink⟩
  obtain ⟨a, ha, hcmd⟩ := hostCmd_put hready hc (i := .digestUpdate (BitVec.ofNat 11 c.length)) (lenLegal_ofNat hc)
  have hrun := hrun.latched ha
  have hexec := (Change.absorb (BitVec.ofNat 11 c.length) (lenLegal_ofNat hc) hrun.bound).exec
  rw [ha.operand] at hexec
  obtain ⟨h', hcmd, hret⟩ := hcmd hexec (by simp)
  refine ⟨h', ?_, hret.ready, (hrun.absorb c).returned hret, hret.sink.trans hsink⟩
  simp only [checksumLoop, if_neg hempty, hcmd, onOk, andThen]

/-- R193, R196: the reads of the source feed the bytes they carry. -/
theorem checksumLoop_reads {src : List SourceRead} (hsrc : sourceFine src) (hs : SessionHashing sink0 m h) :
    ∃ h', checksumLoop src h = checksumLoop [] h' ∧ SessionHashing sink0 (m ++ sourceBytes src) h' := by
  induction src generalizing m h with
  | nil => exact ⟨h, rfl, by simpa [sourceBytes] using hs⟩
  | cons r rest ih =>
    obtain ⟨⟨c, rfl, hc⟩, hrest⟩ := List.forall_mem_cons.mp hsrc
    obtain ⟨h1, hloop1, hs1⟩ := checksumLoop_chunk hs hc rest
    obtain ⟨h2, hloop2, hs2⟩ := ih hrest hs1
    exact ⟨h2, hloop1.trans hloop2, by simpa [sourceBytes] using hs2⟩

/-- R162, R193: DIGEST_FINAL leaves the digest of what was fed in DIGEST. -/
theorem hostCmd_digestFinal (hs : SessionHashing sink0 m h) (hm : m.length < 2 ^ 61) :
    ∃ h' out, hostCmd .digestFinal h = .next (h', .ok out) ∧ h'.ready ∧ h'.engine.fsm = .dFinal ∧
      h'.engine.digest.toList = sha256 m ∧ h'.sink = sink0 := by
  obtain ⟨hready, hrun, hsink⟩ := hs
  have hrun := hrun.latched (latched_accepted (encode .digestFinal) h.engine)
  obtain ⟨h', hcmd, hret⟩ := hostCmd_success hready (i := .digestFinal) rfl (Change.closeDigest hrun.bound).exec
    (by simp [finalDigest_length])
  obtain ⟨r, d, hengine⟩ := hret.engine
  refine ⟨h', _, hcmd, hret.ready, by rw [hengine]; rfl, ?_, hret.sink.trans hsink⟩
  rw [hengine]
  exact (closeDigest_digest_toList _).trans (hrun.finalDigest hm)

/-- R186, R193: HEX returns the characters of DIGEST. -/
theorem hostCmd_hex (hready : h.ready) (hfsm : h.engine.fsm = .dFinal) :
    ∃ h', hostCmd .hex h = .next (h', .ok (hexString h.engine.digest.toList)) ∧ h'.sink = h.sink := by
  obtain ⟨h', hcmd, hret⟩ := hostCmd_success hready (i := .hex) rfl
    (Change.hex (s := accepted (encode .hex) h.engine) hfsm).exec (by simp [hexString_length])
  exact ⟨h', hcmd, hret.sink⟩

/-- R193: at the end of the source DIGEST_FINAL, and HEX of its digest. -/
theorem checksumLoop_final (hs : SessionHashing sink0 m h) (hm : m.length < 2 ^ 61) :
    ∃ h', checksumLoop [] h = .next (h', .ok (hexString (sha256 m))) ∧ h'.sink = sink0 := by
  obtain ⟨h1, out, hfinal, hready1, hfsm1, hdigest1, hsink1⟩ := hostCmd_digestFinal hs hm
  obtain ⟨h2, hhex, hsink2⟩ := hostCmd_hex hready1 hfsm1
  rw [hdigest1] at hhex
  exact ⟨h2, by simp only [checksumLoop, hfinal, onOk, andThen, hhex], hsink2.trans hsink1⟩

end

/-- R160, R193: the commands before the first read of the source: CLEAR and DIGEST_INIT. -/
theorem checksumSession_start {h : Session} (hready : h.ready) (src : List SourceRead) :
    ∃ h', checksumSession true src h = checksumLoop src h' ∧ SessionHashing h.sink [] h' := by
  obtain ⟨h1, hclear, hret1⟩ := hostCmd_success hready (i := .clear) rfl (execClear_eq _) (by simp)
  obtain ⟨r, d, hengine1⟩ := hret1.engine
  have hidle1 : (accepted (encode .digestInit) h1.engine).fsm.idle = true := by rw [hengine1]; rfl
  obtain ⟨h2, hinit, hret2⟩ := hostCmd_success hret1.ready (i := .digestInit) rfl (Change.bindDigest hidle1).exec
    (by simp)
  refine ⟨h2, ?_, hret2.ready, (Hashing.bindDigest _).returned hret2, hret2.sink.trans hret1.sink⟩
  simp only [checksumSession, hclear, hinit, onOk, andThen, if_true]

/-- Settles O58: the context that CLEAR and DIGEST_INIT bind is fed the source, and HEX formats its digest. -/
theorem checksumSessionReturnsTheDigest : Obligations.ChecksumSessionReturnsTheDigest := by
  unfold Obligations.ChecksumSessionReturnsTheDigest
  intro h src hready hsrc hm
  obtain ⟨h1, hstart, hs1⟩ := checksumSession_start hready src
  obtain ⟨h2, hreads, hs2⟩ := checksumLoop_reads hsrc hs1
  obtain ⟨h3, hfinal, hsink3⟩ := checksumLoop_final hs2 hm
  exact ⟨h3, by rw [hstart, hreads, hfinal, List.nil_append], hsink3⟩

end Sys2Proof.Machine
end

section
/-! PROOF. What the bus answers while reset is asserted (spec 70_reset_and_hazards.md R235). -/

namespace Sys2Proof.Machine

/-- Settles O21: inside the window the asserted reset is tested before the access is judged by R55 or carried out, so
neither its width nor its value matters. -/
theorem assertedResetIgnoresTheBus : Obligations.AssertedResetIgnoresTheBus := by
  unfold Obligations.AssertedResetIgnoresTheBus
  intro s off n v hreset hoff
  have hwindow : windowOffset s.cfg (s.cfg.base + off) = some off := windowOffset_base s.cfg hoff
  constructor
  · simp only [busAccess, hwindow, hreset, if_true]
  · simp only [busAccess, hwindow, hreset, if_true]

end Sys2Proof.Machine
end
